-- ==== Sys2Proof/Word.lean ====
section
/-! DEFINITION. The widths of the block's values (00_scope.md R11, R13): bytes on the two channels, 16-bit device
registers, 7-bit bus addresses, 3-bit configuration codes and 22-bit response words. -/

namespace Sys2Proof

/-- A byte: a command word (R81) or one byte of a bus transaction (R52, R53). -/
abbrev Byte := BitVec 8

/-- A device register: configuration word or conversion result (R51, R86). -/
abbrev Word16 := BitVec 16

/-- A bus address (R50, 92 D18). -/
abbrev DevAddr := BitVec 7

/-- A field code of the configuration word: MUX, PGA or DR (R87, R88, R89). -/
abbrev Code3 := BitVec 3

/-- A response word (R90). -/
abbrev RespWord := BitVec 22

end Sys2Proof
end

