-- ==== Sys2Proof/Syntax.lean ====
section
/-! DEFINITION. The command set (30_encoding.md R80, R82): one constructor per row of spec/opcode_table.json. -/

namespace Sys2Proof

/-- A host command. An illegal command word (R84) is no command: the decoder rejects it by name. -/
inductive Instr where
  /-- NOP (R110). -/
  | nop
  /-- TRIGGER p, `p` a logical port 0..15 (R120). -/
  | trigger (port : BitVec 4)
  /-- SETRANGE r, `r` a range code, legal 0..5 (R112). -/
  | setrange (range : Code3)
  /-- SETRATE t, `t` a rate code 0..7 (R114). -/
  | setrate (rate : Code3)
  /-- POLL (R127). -/
  | poll
  /-- FETCH (R130). -/
  | fetch
  deriving DecidableEq, Repr

end Sys2Proof
end

