-- ==== Sys2Proof/WellFormed.lean ====
section
/-! DEFINITION. The operand checks the encoding makes (30_encoding.md R83, R84). -/

namespace Sys2Proof

/-- The operand is one the opcode map admits (R82): only SETRANGE has operands its field can hold and the map refuses. -/
def Instr.wf : Instr → Bool
  | .nop => true
  | .trigger _ => true
  | .setrange r => decide (r.toNat ≤ 5)
  | .setrate _ => true
  | .poll => true
  | .fetch => true

end Sys2Proof
end

