-- ==== Sys2Proof/Decode.lean ====
section
/-! DEFINITION. The command word (30_encoding.md R81 to R85): the decoder, total on the 256 words and rejecting by name,
and the encoder, written from the opcode map. -/

namespace Sys2Proof

/-- Why a command word is illegal: the four classes (a) to (d) of R84. -/
inductive IllegalWord where
  /-- (a) `op` in 0x6..0xF. -/
  | opUnassigned
  /-- (b) a nonzero `arg` where the command takes none. -/
  | operandNotZero
  /-- (c) `arg[3] = 1` where it must be 0. -/
  | argBit3Set
  /-- (d) range code 6 or 7. -/
  | rangeCodeUnassigned
  deriving DecidableEq, Repr

/-- Bits 7:4 of a command word (R81). -/
def opField (w : Byte) : BitVec 4 := w.extractLsb' 4 4

/-- Bits 3:0 of a command word (R81). -/
def argField (w : Byte) : BitVec 4 := w.extractLsb' 0 4

/-- Bits 2:0 of the operand: the range or rate code (R83). -/
def codeOfArg (arg : BitVec 4) : Code3 := arg.extractLsb' 0 3

/-- NOP, POLL and FETCH: `arg` must be 0b0000 (R82). -/
def decodeNoOperand (arg : BitVec 4) (i : Instr) : Except IllegalWord Instr :=
  if arg = 0 then .ok i else .error .operandNotZero

/-- SETRANGE: `arg[3]` must be 0 and the code 0..5 (R82). -/
def decodeSetrange (arg : BitVec 4) : Except IllegalWord Instr :=
  if arg.getLsbD 3 then .error .argBit3Set
  else if (codeOfArg arg).toNat ≤ 5 then .ok (.setrange (codeOfArg arg))
  else .error .rangeCodeUnassigned

/-- SETRATE: `arg[3]` must be 0 (R82). -/
def decodeSetrate (arg : BitVec 4) : Except IllegalWord Instr :=
  if arg.getLsbD 3 then .error .argBit3Set else .ok (.setrate (codeOfArg arg))

/-- The opcode map (R82), the same in every state (R85). -/
def decode (w : Byte) : Except IllegalWord Instr :=
  match (opField w).toNat with
  | 0x0 => decodeNoOperand (argField w) .nop
  | 0x1 => .ok (.trigger (argField w))
  | 0x2 => decodeSetrange (argField w)
  | 0x3 => decodeSetrate (argField w)
  | 0x4 => decodeNoOperand (argField w) .poll
  | 0x5 => decodeNoOperand (argField w) .fetch
  | _ => .error .opUnassigned

/-- The opcode of a command (R82). -/
def opOf : Instr → BitVec 4
  | .nop => 0x0
  | .trigger _ => 0x1
  | .setrange _ => 0x2
  | .setrate _ => 0x3
  | .poll => 0x4
  | .fetch => 0x5

/-- The operand field of a command (R82, R83). -/
def argOf : Instr → BitVec 4
  | .nop => 0
  | .trigger p => p
  | .setrange r => r.setWidth 4
  | .setrate t => t.setWidth 4
  | .poll => 0
  | .fetch => 0

/-- The command word of a command: `op` in bits 7:4, `arg` in bits 3:0 (R81, R82). -/
def encode (i : Instr) : Byte := opOf i ++ argOf i

/-- What the decoder reads from an instruction whose bits are `w`, numbered as spec/opcode_table.json numbers them: every
command is one 8-bit word with bit 0 its least significant bit (R13, R81), so a longer word is no instruction
(DEDUCED, log entry 18; safe). -/
def decodeTableWord (nbits w : Nat) : Option Instr :=
  if nbits ≤ 8 ∧ w < 2 ^ nbits then
    match decode (BitVec.ofNat 8 w) with
    | .ok i => some i
    | .error _ => none
  else none

end Sys2Proof
end

