-- ==== Sys2Proof/Config.lean ====
section
/-! DEFINITION. What is fixed for a run (00_scope.md R12, 70_reset_and_hazards.md R183) and the free values the bus
collaborator supplies (20_memory.md R52, R53). -/

namespace Sys2Proof

/-- The parameters of R12. They stand in the state (DESIGN CHOICE, log entry 1), so that a statement about every state
quantifies over them; no step writes them (R183). -/
structure Params where
  /-- `MAX_POLLS`: the number of not-done polls after a trigger that moves the state to TIMEDOUT; 0 disables it. -/
  maxPolls : Nat
  /-- `POLL_READS_WHEN_NOT_AWAITING`: whether a poll step reads the device in states other than AWAIT (R126). -/
  pollReadsWhenNotAwaiting : Bool
  /-- `RESET_RANGE`, a range code 0..5 (R23). -/
  resetRange : Code3
  /-- `RESET_RATE`, a rate code 0..7 (R24). -/
  resetRate : Code3
  deriving DecidableEq, Repr

/-- R12 gives `RESET_RANGE` the type "range code 0..5"; the other three parameters take every value of their type. -/
abbrev Params.Legal (p : Params) : Prop := p.resetRange.toNat ≤ 5

/-- DESIGN CHOICE (log entry 1; unsafe). The values of R12's table for the reference-compatible build, and for the
parameter whose entry there is "see D9" the recommended 0. -/
def Params.reference : Params where
  maxPolls := 0
  pollReadsWhenNotAwaiting := false
  resetRange := 2
  resetRate := 4

/-- FREE VALUE (DESIGN CHOICE, log entry 4; safe): the ack of a write for which the state lists no answer, by draw
index, address and bytes. "The ack is a free input of the step (an oracle draw): the model assumes nothing about it"
(R52). -/
opaque Config.freeAck : Nat → DevAddr → List Byte → Bool

/-- FREE VALUE (DESIGN CHOICE, log entry 4; safe): the bytes of a read for which the state lists no answer, by draw
index, address and requested count. The bus primitive keeps at most the requested count of them (R53). -/
opaque Config.freeBytes : Nat → DevAddr → Nat → List Byte

end Sys2Proof
end

