-- ==== Sys2Proof/Machine/State.lean ====
section
/-! DEFINITION. The state of the block (10_state.md) with its two channels (30_encoding.md R92, R93), as plain data, and the
state after reset (70_reset_and_hazards.md R180). -/

namespace Sys2Proof.Machine

/-- The session state (R20): exactly these four. The source's "NothingToDo" is not a state (90_conflicts.md C2). -/
inductive SessionState where
  | idle
  | await
  | ready
  | timedOut
  deriving DecidableEq, Repr

/-- The status of a response (R91); codes 5 to 7 are reserved and never produced, so they have no constructor. -/
inductive Status where
  | ok
  | notReady
  | timedOut
  | busError
  | illegal
  deriving DecidableEq, Repr

/-- One event of the bus log (R29): `W(addr7, bytes, ack)` or `R(addr7, n, bytes)`. -/
inductive BusEvent where
  | write (addr : DevAddr) (bytes : List Byte) (ack : Bool)
  | read (addr : DevAddr) (count : Nat) (bytes : List Byte)
  deriving DecidableEq, Repr

/-- Faults: none. "The block itself has no fault state" (R178), every error is a response status (R169); so this type
has no constructor and no step can answer one (DEDUCED, log entry 12; safe). -/
inductive Fault where
  deriving DecidableEq, Repr

/-- Why the model has no next state. None of these is raised by a command for what it is or what its operand is. -/
inductive Refusal where
  /-- An instruction without a meaning, by its mnemonic. No arm of exec answers it: every command has its meaning.
  Safe. -/
  | notModelled (mnemonic : String)
  /-- Raised by the step when `fetchBusy = 0` and the host offers no command: no step exists there (R31), the run has
  ended (R192). Safe (DESIGN CHOICE, log entry 3). -/
  | noCommandOffered
  /-- Raised by a bus read when the collaborator's answer has more bytes than requested: "a return with more than n bytes
  cannot happen and the model refuses an oracle that gives one" (R53, R178 d). Safe (DEDUCED, log entry 5). -/
  | overlongReadAnswer
  deriving DecidableEq, Repr

/-- The whole state: the registers of R32, the host channel, the collaborator's coming answers and the parameters. -/
structure State where
  /-- The session state (R20). -/
  st : SessionState
  /-- The active device address (R21). -/
  activeAddr : DevAddr
  /-- The active mux code, unshifted (R22). -/
  activeMux : Code3
  /-- The full-scale range code (R23). -/
  rangeCode : Code3
  /-- The sample-rate code (R24). -/
  rateCode : Code3
  /-- The sticky bus-error flag (R26). -/
  busErr : Bool
  /-- The not-done poll counter, "a natural number in 0..MAX_POLLS" (R27). A `Nat`, so that it also
  has a value past the limit, in states no run reaches (DEDUCED, log entry 10; safe). -/
  pollCount : Nat
  /-- A FETCH waits: the block accepts no command (R28). -/
  fetchBusy : Bool
  /-- The bus event log, oldest first (R29). -/
  busLog : List BusEvent
  /-- The response words emitted so far, oldest first (R90, R92; DEDUCED, log entry 7; safe). -/
  responses : List RespWord
  /-- The command words the host offers and the block has not accepted, in the order offered (R92;
  DESIGN CHOICE, log entry 2; safe). -/
  hostCmds : List Byte
  /-- The collaborator's coming answers to writes, in order; when none is listed the answer is a free value
  (R52; DESIGN CHOICE, log entry 4; safe). -/
  acks : List Bool
  /-- The collaborator's coming answers to reads, in order; when none is listed the answer is a free value
  (R53; DESIGN CHOICE, log entry 4; safe). -/
  reads : List (List Byte)
  /-- The MODEL'S OWN field: the index of the next free value (DESIGN CHOICE, log entry 6; safe). -/
  draws : Nat
  /-- The parameters, fixed at reset (R12, R183; DESIGN CHOICE, log entry 1). -/
  params : Params
  deriving DecidableEq, Repr

/-- Reset with the parameters `p` (R180 and the table of R32): every register at its reset value, no bus access, no
response. -/
def State.resetWith (p : Params) : State where
  st := .idle
  activeAddr := 0x48
  activeMux := 4
  rangeCode := p.resetRange
  rateCode := p.resetRate
  busErr := false
  pollCount := 0
  fetchBusy := false
  busLog := []
  responses := []
  hostCmds := []
  acks := []
  reads := []
  draws := 0
  params := p

/-- The machine right after reset, with the parameters of log entry 1 (DESIGN CHOICE, unsafe). The statements about
reset are about `State.resetWith p` for every `p`. -/
def State.reset : State := State.resetWith Params.reference

end Sys2Proof.Machine
end

