-- ==== Sys2Proof/Machine/Operands.lean ====
section
/-! DEFINITION. Byte order (20_memory.md R55), the channel/config encoder (40_encoder.md R100 to R104) and the reading back of
the configuration word's fields (30_encoding.md R86). -/

namespace Sys2Proof.Machine

/-- `BASE_ADDR` (R11). -/
def baseAddr : DevAddr := 0x48

/-- The pointer of the conversion result register (R50, R51). -/
def resultPointer : Byte := 0x00

/-- The pointer of the configuration register (R50, R51). -/
def configPointer : Byte := 0x01

/-- `w[15:8]`, the byte that goes first (R55). -/
def hiByte (w : Word16) : Byte := w.extractLsb' 8 8

/-- `w[7:0]`, the byte that goes second (R55). -/
def loByte (w : Word16) : Byte := w.extractLsb' 0 8

/-- `b0 ++ b1`: two bytes read, the first in the more significant place (R13, R55). -/
def joinBytes (b0 b1 : Byte) : Word16 := b0 ++ b1

/-- The 16-bit value of a complete two-byte answer; an answer of another length is no value (R56). -/
def wordOfBytes : List Byte → Option Word16
  | [b0, b1] => some (joinBytes b0 b1)
  | _ => none

/-- `s16(v)`: the two's-complement value of a 16-bit word, as the host reads a sample (R13). -/
def s16 (v : Word16) : Int := if v.getLsbD 15 then (v.toNat : Int) - 65536 else v.toNat

/-- `selectDevice(port) -> (addr, mux)` (R100). -/
def selectDevice (port : BitVec 4) : DevAddr × Code3 :=
  (baseAddr + BitVec.ofNat 7 (port.toNat / 4), 4 + BitVec.ofNat 3 (port.toNat % 4))

/-- `buildConfigWord(mux, range, rate) -> w`: the bitwise OR of R102. -/
def buildConfigWord (mux range rate : Code3) : Word16 :=
  0x0003 ||| (rate.setWidth 16 <<< 5) ||| 0x0100 ||| (range.setWidth 16 <<< 9) ||| (mux.setWidth 16 <<< 12) ||| 0x8000

/-- The encoder combined, as TRIGGER uses it (R104). -/
def encodeConversion (port : BitVec 4) (range rate : Code3) : DevAddr × Code3 × Word16 :=
  let sel := selectDevice port
  (sel.1, sel.2, buildConfigWord sel.2 range rate)

/-- OS, bit 15 of a configuration word: start when written, done when read (R86). -/
def cfgOs (w : Word16) : Bool := w.getLsbD 15

/-- MUX, bits 14:12 (R86). -/
def cfgMux (w : Word16) : Code3 := w.extractLsb' 12 3

/-- PGA, bits 11:9 (R86). -/
def cfgPga (w : Word16) : Code3 := w.extractLsb' 9 3

/-- MODE, bit 8: 1 is single-shot (R86). -/
def cfgMode (w : Word16) : Bool := w.getLsbD 8

/-- DR, bits 7:5 (R86). -/
def cfgDr (w : Word16) : Code3 := w.extractLsb' 5 3

/-- COMP, bits 4:0 (R86). -/
def cfgComp (w : Word16) : BitVec 5 := w.extractLsb' 0 5

end Sys2Proof.Machine
end

