-- ==== Sys2Proof/Machine/Flags.lean ====
section
/-! DEFINITION. The status bit of a poll (10_state.md R33), the failure of a bus access (60_exceptions.md R163), the statuses
with their priority (R164) and the response word (30_encoding.md R90, R91). -/

namespace Sys2Proof.Machine

/-- The encoding of the session states (R20). -/
def stateCode : SessionState → BitVec 2
  | .idle => 0b00
  | .await => 0b01
  | .ready => 0b10
  | .timedOut => 0b11

/-- The session state of a code; every encoding is legal (R20). -/
def stateOfCode (c : BitVec 2) : SessionState :=
  if c = 0b00 then .idle else if c = 0b01 then .await else if c = 0b10 then .ready else .timedOut

/-- The status codes (R91). -/
def statusCode : Status → BitVec 3
  | .ok => 0
  | .notReady => 1
  | .timedOut => 2
  | .busError => 3
  | .illegal => 4

/-- The status of a code; 5, 6 and 7 are reserved (R91). -/
def statusOfCode (c : BitVec 3) : Option Status :=
  if c = 0 then some .ok else if c = 1 then some .notReady else if c = 2 then some .timedOut
  else if c = 3 then some .busError else if c = 4 then some .illegal else none

/-- The response word `busErr ++ status ++ state ++ data` (R90). -/
def responseWord (err : Bool) (status : Status) (st : SessionState) (data : Word16) : RespWord :=
  BitVec.ofBool err ++ statusCode status ++ stateCode st ++ data

/-- Bit 21 of a response word, `err` (R90). -/
def respErr (r : RespWord) : Bool := r.getLsbD 21

/-- Bits 20:18 of a response word, `status` (R90). -/
def respStatus (r : RespWord) : BitVec 3 := r.extractLsb' 18 3

/-- Bits 17:16 of a response word, `state` (R90). -/
def respState (r : RespWord) : BitVec 2 := r.extractLsb' 16 2

/-- Bits 15:0 of a response word, `data` (R90). -/
def respData (r : RespWord) : Word16 := r.extractLsb' 0 16

/-- The sentinel 0xFFFE, the data of every FETCH response that is not OK (R131, R165). -/
def sentinel : Word16 := 0xFFFE

/-- The collaborator's two answers when a device register is read: the ack of the pointer write and the bytes. -/
structure RegisterAnswer where
  ack : Bool
  bytes : List Byte
  deriving DecidableEq, Repr

/-- A bus access of the register read failed: ack 0, or fewer than the two bytes requested (R163). -/
def accessFailed (a : RegisterAnswer) : Bool := !a.ack || decide (a.bytes.length < 2)

/-- The data of a poll: the word read back, or 0x0000 after a short read (R125). -/
def pollData (bytes : List Byte) : Word16 := (wordOfBytes bytes).getD 0x0000

/-- `done`: bit 15 of a complete poll read; a short read is not done (R125, R33). -/
def pollDone (bytes : List Byte) : Bool :=
  match wordOfBytes bytes with
  | some w => w.getLsbD 15
  | none => false

/-- TRIGGER's status (R120, R164). -/
def triggerStatus (ack : Bool) : Status := if ack then .ok else .busError

/-- POLL's status: TIMED_OUT, else BUS_ERROR, else OK (R127, R164). -/
def pollStatus (st : SessionState) (fail : Bool) : Status :=
  if st = .timedOut then .timedOut else if fail then .busError else .ok

end Sys2Proof.Machine
end

