-- ==== Sys2Proof/Machine/Ops.lean ====
section
/-! DEFINITION. The named operations over the state: the bus primitives and frames (20_memory.md R52 to R54), the response
primitive (00_scope.md R16), the host's side of its channel and its reset (30_encoding.md R92, 70 R180, R193). The block
has no trap, so there is no taking of an exception and no return from one (60_exceptions.md R169, R170). -/

namespace Sys2Proof.Machine

/-- The ack the collaborator answers the next write with: the first listed one, or a free value (R52). -/
def nextAck (a : DevAddr) (bytes : List Byte) (s : State) : Bool :=
  match s.acks with
  | [] => Config.freeAck s.draws a bytes
  | k :: _ => k

/-- The state after a write: its event appended, the answer consumed (R52). -/
def afterWrite (a : DevAddr) (bytes : List Byte) (s : State) : State :=
  { s with
    acks := s.acks.tail
    draws := s.draws + 1
    busLog := s.busLog ++ [.write a bytes (nextAck a bytes s)] }

/-- `BusWrite(addr7, bytes) -> ack` (R52). -/
def busWrite (a : DevAddr) (bytes : List Byte) (s : State) : State × Bool :=
  (afterWrite a bytes s, nextAck a bytes s)

/-- The bytes the collaborator answers the next read with: the first listed answer, or at most `n` free bytes (R53). -/
def nextRead (a : DevAddr) (n : Nat) (s : State) : List Byte :=
  match s.reads with
  | [] => (Config.freeBytes s.draws a n).take n
  | bytes :: _ => bytes

/-- The next listed answer breaks the collaborator's contract: it has more than `n` bytes (R53). -/
def readOverlong (n : Nat) (s : State) : Bool :=
  match s.reads with
  | [] => false
  | bytes :: _ => decide (n < bytes.length)

/-- The state after a read of `n` bytes: its event appended, the answer consumed (R53). -/
def afterRead (a : DevAddr) (n : Nat) (s : State) : State :=
  { s with
    reads := s.reads.tail
    draws := s.draws + 1
    busLog := s.busLog ++ [.read a n (nextRead a n s)] }

/-- `BusRead(addr7, n) -> bytes`; an answer of more than `n` bytes is refused (R53, R178). -/
def busRead (a : DevAddr) (n : Nat) (s : State) : Except Refusal (State × List Byte) :=
  if readOverlong n s then .error .overlongReadAnswer else .ok (afterRead a n s, nextRead a n s)

/-- The frame `WriteConfig(a, w)` (R54). -/
def writeConfig (a : DevAddr) (w : Word16) (s : State) : State × Bool :=
  busWrite a [configPointer, hiByte w, loByte w] s

/-- The frame `SelectPointer(a, p)` (R54). -/
def selectPointer (a : DevAddr) (p : Byte) (s : State) : State × Bool := busWrite a [p] s

/-- The frame `Read16(a)` (R54). -/
def read16 (a : DevAddr) (s : State) : Except Refusal (State × List Byte) := busRead a 2 s

/-- The register read the poll step and FETCH perform at the active address: `SelectPointer` then `Read16` (R54). -/
def readRegister (p : Byte) (s : State) : Except Refusal (State × RegisterAnswer) :=
  let w := selectPointer s.activeAddr p s
  match read16 s.activeAddr w.1 with
  | .error r => .error r
  | .ok (s', bytes) => .ok (s', ⟨w.2, bytes⟩)

/-- The state after a register read that stays within the collaborator's contract. -/
def afterRegister (p : Byte) (s : State) : State :=
  afterRead s.activeAddr 2 (afterWrite s.activeAddr [p] s)

/-- The two answers the collaborator gives to a register read. -/
def registerAnswer (p : Byte) (s : State) : RegisterAnswer :=
  ⟨nextAck s.activeAddr [p] s, nextRead s.activeAddr 2 (afterWrite s.activeAddr [p] s)⟩

/-- `if fail == 1: busErr <- 1`: the flag is only ever set here (R26, R163). -/
def noteFailure (fail : Bool) (s : State) : State := { s with busErr := s.busErr || fail }

/-- `respond(status, state, data)`: one response word, with `busErr` and `st` as they stand (R16, R90). -/
def respond (status : Status) (data : Word16) (s : State) : State :=
  { s with responses := s.responses ++ [responseWord s.busErr status s.st data] }

/-- The host offers one more command word, after those that wait (R92). -/
def hostOffer (w : Byte) (s : State) : State := { s with hostCmds := s.hostCmds ++ [w] }

/-- The block takes the offered word `w` next: it waits first in line and no FETCH is in progress (R31,
R92; DESIGN CHOICE, log entry 11; safe). -/
def offerFirst (w : Byte) (s : State) : State := { s with fetchBusy := false, hostCmds := w :: s.hostCmds }

/-- The host resets a running block, fixing the parameters (R180, R183, R193). Not a step (R31). The words that wait
and the collaborator belong to the other side of the two channels and stay (DESIGN CHOICE, log entry 8; unsafe). -/
def hostReset (p : Params) (s : State) : State :=
  { State.resetWith p with hostCmds := s.hostCmds, acks := s.acks, reads := s.reads, draws := s.draws }

end Sys2Proof.Machine
end

