-- ==== Sys2Proof/Machine/Configuration.lean ====
section
/-! DEFINITION. The configuration family (41_config.md): NOP, SETRANGE, SETRATE, and the answer to an illegal command word
(60_exceptions.md R161). None of them accesses the bus. -/

namespace Sys2Proof.Machine

/-- NOP (R110). -/
def execNop (s : State) : Host.Outcome State Fault Refusal := .next (respond .ok 0x0000 s)

/-- SETRANGE r (R112). The decoder gives `r` in 0..5 only (DESIGN CHOICE, log entry 14; safe). -/
def execSetrange (r : Code3) (s : State) : Host.Outcome State Fault Refusal :=
  .next (respond .ok 0x0000 { s with rangeCode := r })

/-- SETRATE t (R114). -/
def execSetrate (t : Code3) (s : State) : Host.Outcome State Fault Refusal :=
  .next (respond .ok 0x0000 { s with rateCode := t })

/-- `ILLEGAL(c)`: every word of R84, whatever its class, gets the same response and changes no register (R161). -/
def execIllegal (s : State) : Host.Outcome State Fault Refusal := .next (respond .illegal 0x0000 s)

end Sys2Proof.Machine
end

