-- ==== Sys2Proof/Machine/Conversion.lean ====
section
/-! DEFINITION. The conversion family (42_conversion.md): TRIGGER, the poll step with POLL, FETCH's acceptance and its wait
iteration. -/

namespace Sys2Proof.Machine

/-- The registers TRIGGER writes before its bus write, for the device `addr` and the mux code `mux` (R120). -/
def startSession (addr : DevAddr) (mux : Code3) (s : State) : State :=
  { s with activeAddr := addr, activeMux := mux, st := .await, pollCount := 0, busErr := false }

/-- TRIGGER p (R120), in every session state (R121). -/
def execTrigger (p : BitVec 4) (s : State) : Host.Outcome State Fault Refusal :=
  let e := encodeConversion p s.rangeCode s.rateCode
  let r := writeConfig e.1 e.2.2 (startSession e.1 e.2.1 s)
  .next (respond (triggerStatus r.2) e.2.2 (noteFailure (!r.2) r.1))

/-- What the poll step returns beside the state (R125): `fail` and `data`. -/
structure PollAnswer where
  fail : Bool
  data : Word16
  deriving DecidableEq, Repr

/-- The end of a poll in AWAIT: READY when done, else the count and its limit when `MAX_POLLS != 0` (R125). -/
def pollAdvance (done : Bool) (s : State) : State :=
  if done then { s with st := .ready }
  else if s.params.maxPolls = 0 then s
  else if s.pollCount + 1 = s.params.maxPolls then { s with pollCount := s.pollCount + 1, st := .timedOut }
  else { s with pollCount := s.pollCount + 1 }

/-- The poll step in AWAIT (R125). A failed pointer write is recorded and the bytes are still used. -/
def pollAwait (s : State) : Except Refusal (State × PollAnswer) :=
  match readRegister configPointer s with
  | .error r => .error r
  | .ok (s', a) =>
    .ok (pollAdvance (pollDone a.bytes) (noteFailure (accessFailed a) s'), ⟨accessFailed a, pollData a.bytes⟩)

/-- The poll step in IDLE, READY and TIMEDOUT: no access, or one whose bytes are ignored (R126). -/
def pollElsewhere (s : State) : Except Refusal (State × PollAnswer) :=
  if s.params.pollReadsWhenNotAwaiting then
    match readRegister configPointer s with
    | .error r => .error r
    | .ok (s', a) => .ok (noteFailure (accessFailed a) s', ⟨accessFailed a, 0x0000⟩)
  else .ok (s, ⟨false, 0x0000⟩)

/-- `pollStep() -> (s, fail, data)`, the session state standing in the returned state (R125, R126). -/
def pollStep (s : State) : Except Refusal (State × PollAnswer) :=
  match s.st with
  | .await => pollAwait s
  | .idle => pollElsewhere s
  | .ready => pollElsewhere s
  | .timedOut => pollElsewhere s

/-- POLL (R127). -/
def execPoll (s : State) : Host.Outcome State Fault Refusal :=
  match pollStep s with
  | .error r => .refused r
  | .ok (s', a) => .next (respond (pollStatus s'.st a.fail) a.data s')

/-- FETCH, the acceptance step: no bus access, no response (R130). -/
def execFetch (s : State) : Host.Outcome State Fault Refusal := .next { s with fetchBusy := true }

/-- FETCH's completion on the READY branch: `st` becomes IDLE before the result read (R131). -/
def fetchResult (s : State) : Host.Outcome State Fault Refusal :=
  match readRegister resultPointer { s with st := .idle } with
  | .error r => .refused r
  | .ok (s', a) =>
    if accessFailed a then .next (respond .busError sentinel (noteFailure true s'))
    else .next (respond .ok (pollData a.bytes) s')

/-- FETCH's end once its poll step left the session in a state other than AWAIT (R131). -/
def fetchEnd (s : State) : Host.Outcome State Fault Refusal :=
  match s.st with
  | .await => .next s
  | .ready => fetchResult { s with fetchBusy := false }
  | .timedOut => .next (respond .timedOut sentinel { s with fetchBusy := false })
  | .idle => .next (respond .notReady sentinel { s with fetchBusy := false })

/-- One wait iteration of FETCH, the Iterate step (R131, R31). -/
def fetchIterate (s : State) : Host.Outcome State Fault Refusal :=
  match pollStep s with
  | .error r => .refused r
  | .ok (s', _) => fetchEnd s'

end Sys2Proof.Machine
end

