-- ==== Sys2Proof/Machine/Dispatch.lean ====
section
/-! DEFINITION. exec: one arm per command, each one direct call of its meaning. -/

namespace Sys2Proof.Machine

/-- The rule of an accepted command's opcode (30_encoding.md R81). Whether the block accepts is the step's question (R31;
DEDUCED, log entry 9; safe). -/
def exec (i : Instr) (s : State) : Host.Outcome State Fault Refusal :=
  match i with
  | .nop => Sys2Proof.Machine.execNop s
  | .trigger p => Sys2Proof.Machine.execTrigger p s
  | .setrange r => Sys2Proof.Machine.execSetrange r s
  | .setrate t => Sys2Proof.Machine.execSetrate t s
  | .poll => Sys2Proof.Machine.execPoll s
  | .fetch => Sys2Proof.Machine.execFetch s

end Sys2Proof.Machine
end

