-- ==== Sys2Proof/Machine/Accept.lean ====
section
/-! DEFINITION. The two kinds of step (10_state.md R31): accepting the next offered command word, and iterating a FETCH. -/

namespace Sys2Proof.Machine

/-- The rule of the word `w`: its command's, or the answer to an illegal word (R82, R161). -/
def runWord (w : Byte) (s : State) : Host.Outcome State Fault Refusal :=
  match decode w with
  | .ok i => exec i s
  | .error _ => execIllegal s

/-- Accept: the block takes the first offered word; where none is offered there is no step (R31, R92). -/
def acceptNext (s : State) : Host.Outcome State Fault Refusal :=
  match s.hostCmds with
  | [] => .refused .noCommandOffered
  | w :: rest => runWord w { s with hostCmds := rest }

/-- Iterate while `fetchBusy = 1`, Accept while it is 0; no other step exists (R31). -/
def blockStep (s : State) : Host.Outcome State Fault Refusal :=
  if s.fetchBusy then fetchIterate s else acceptNext s

end Sys2Proof.Machine
end

