-- ==== Sys2Proof/Machine/Step.lean ====
section
/-! DEFINITION. One step of the block (10_state.md R31), and the placing of a word where the next step takes it. -/

namespace Sys2Proof.Machine

/-- One step. -/
def step (s : State) : Host.Outcome State Fault Refusal := blockStep s

/-- `s` with the command word of bits `w` offered first, and no FETCH in progress, so that the next step accepts it (R31,
R92). The block fetches nothing (R65): this stands for the host's offer (DESIGN CHOICE, log entries 2 and 11; safe). -/
def State.withFetchWord (s : State) (nbits w : Nat) : State := offerFirst (BitVec.ofNat 8 (w % 2 ^ nbits)) s

end Sys2Proof.Machine
end

