-- ==== Sys2Proof/Machine/Assembler.lean ====
section
/-! DEFINITION. The assembler of 30_encoding.md R95 and R96: host-side notation, no part of the block. It refuses an operand
outside its range and never wraps it into the field (R95, 60_exceptions.md R162). -/

namespace Sys2Proof.Machine

/-- One line of assembly: a command or a pseudo-instruction, its operands any natural numbers the host may hold (R95,
R96). -/
inductive AsmLine where
  | nop
  | trigger (p : Nat)
  | setrange (r : Nat)
  | setrate (t : Nat)
  | poll
  | fetch
  | convert (p : Nat)
  | sample (p r t : Nat)
  deriving DecidableEq, Repr

/-- A logical port held as a wider integer: a value above 15 is refused, never truncated (R162). -/
def hostPort (n : Nat) : Option (BitVec 4) := if n ≤ 15 then some (BitVec.ofNat 4 n) else none

/-- A range operand, 0..5 (R95). -/
def hostRange (n : Nat) : Option Code3 := if n ≤ 5 then some (BitVec.ofNat 3 n) else none

/-- A rate operand, 0..7 (R95). -/
def hostRate (n : Nat) : Option Code3 := if n ≤ 7 then some (BitVec.ofNat 3 n) else none

/-- The commands of a line: one, or those a pseudo-instruction expands to (R95, R96). -/
def expand : AsmLine → Option (List Instr)
  | .nop => some [.nop]
  | .trigger p => (hostPort p).map fun p => [.trigger p]
  | .setrange r => (hostRange r).map fun r => [.setrange r]
  | .setrate t => (hostRate t).map fun t => [.setrate t]
  | .poll => some [.poll]
  | .fetch => some [.fetch]
  | .convert p => (hostPort p).map fun p => [.trigger p, .fetch]
  | .sample p r t =>
    match hostRange r, hostRate t, hostPort p with
    | some r, some t, some p => some [.setrange r, .setrate t, .trigger p, .fetch]
    | _, _, _ => none

/-- The command words of a line. -/
def assembleLine (l : AsmLine) : Option (List Byte) := (expand l).map fun is => is.map encode

/-- The command words of a program, in order; one refused line refuses the program. -/
def assemble : List AsmLine → Option (List Byte)
  | [] => some []
  | l :: ls =>
    match assembleLine l, assemble ls with
    | some ws, some rest => some (ws ++ rest)
    | _, _ => none

/-- The value of a digit in either base; both cases of a hex letter (DESIGN CHOICE, log entry 15; safe). -/
def digitValue (c : Char) : Option Nat :=
  if '0' ≤ c ∧ c ≤ '9' then some (c.toNat - '0'.toNat)
  else if 'a' ≤ c ∧ c ≤ 'f' then some (c.toNat - 'a'.toNat + 10)
  else if 'A' ≤ c ∧ c ≤ 'F' then some (c.toNat - 'A'.toNat + 10)
  else none

/-- Digits of one base, the first the most significant, onto the value `acc` read so far. -/
def readDigits (base : Nat) : List Char → Nat → Option Nat
  | [], acc => some acc
  | c :: cs, acc =>
    match digitValue c with
    | some d => if d < base then readDigits base cs (acc * base + d) else none
    | none => none

/-- An operand: "a decimal or `0x` hex number" (R95). -/
def readNumber : List Char → Option Nat
  | [] => none
  | ['0', 'x'] => none
  | '0' :: 'x' :: ds => readDigits 16 ds 0
  | ds => readDigits 10 ds 0

/-- White space inside a line (DESIGN CHOICE, log entry 15; safe). -/
def isBlank (c : Char) : Bool := c = ' ' || c = '\t' || c = '\r'

/-- The text without the white space at its two ends. -/
def trimBlanks (cs : List Char) : List Char :=
  ((cs.dropWhile isBlank).reverse.dropWhile isBlank).reverse

/-- `;` starts a comment (R95). -/
def stripComment (cs : List Char) : List Char := cs.takeWhile (· ≠ ';')

/-- The operands of a line, separated by commas (R96). -/
def readOperands (cs : List Char) : Option (List Nat) :=
  if cs = [] then some [] else (cs.splitOn ',').mapM fun o => readNumber (trimBlanks o)

/-- A mnemonic in upper case with its operands (R95, R96). -/
def readCommand (mnemonic : List Char) (operands : List Nat) : Option AsmLine :=
  match operands with
  | [] =>
    if mnemonic = "NOP".toList then some .nop
    else if mnemonic = "POLL".toList then some .poll
    else if mnemonic = "FETCH".toList then some .fetch
    else none
  | [n] =>
    if mnemonic = "TRIGGER".toList then some (.trigger n)
    else if mnemonic = "SETRANGE".toList then some (.setrange n)
    else if mnemonic = "SETRATE".toList then some (.setrate n)
    else if mnemonic = "CONVERT".toList then some (.convert n)
    else none
  | [p, r, t] => if mnemonic = "SAMPLE".toList then some (.sample p r t) else none
  | _ => none

/-- One text line: no command on an empty or comment line, else one command (R95). R95 gives no syntax for a line label and
states no meaning of one; the program P2 of 95_test_vectors.md writes the line `wait: POLL`, a mark for the host's loop. This
assembler reads no label: it refuses such a line (DESIGN CHOICE, log entry 15; safe). The directive `.byte` of program P4 is
refused in the same way. -/
def readLine (cs : List Char) : Option (List AsmLine) :=
  let body := trimBlanks (stripComment cs)
  if body = [] then some []
  else
    let mnemonic := body.takeWhile fun c => !isBlank c
    match readOperands (trimBlanks (body.drop mnemonic.length)) with
    | some ops => (readCommand mnemonic ops).map fun l => [l]
    | none => none

/-- A whole text, one command per line (R95), to its command words. -/
def assembleText (text : List Char) : Option (List Byte) :=
  match (text.splitOn '\n').mapM readLine with
  | some ls => assemble ls.flatten
  | none => none

end Sys2Proof.Machine
end

