-- ==== Sys2Proof/Machine/Probe.lean ====
section
/-! DEFINITION. The collaborator's existence probe (43_probe.md). It is no command of the block and touches no block register
(R150, R152): a function of the byte counts the four devices make available (DEDUCED, log entry 17; safe). -/

namespace Sys2Proof.Machine

/-- Whether the probe found a device: at least one byte available (R151). -/
def present (avail : DevAddr → Nat) (a : DevAddr) : Bool := decide (1 ≤ avail a)

/-- The 4-bit presence mask: bit i is address 0x48 + i (R151, 90_conflicts.md C3). -/
def presenceMask (avail : DevAddr → Nat) : BitVec 4 :=
  BitVec.ofBool (present avail (baseAddr + 3)) ++ BitVec.ofBool (present avail (baseAddr + 2)) ++
    BitVec.ofBool (present avail (baseAddr + 1)) ++ BitVec.ofBool (present avail baseAddr)

end Sys2Proof.Machine
end

