-- ==== Sys2Proof/Safety.lean ====
section
/-! DEFINITION. The terms claims are stated in: legal register values (10_state.md R32), the frames a bus log may hold
(20_memory.md R50, R54), the collaborator's contract (R53), the command a step accepts, the end of a run and a hang (R192,
R178). -/

namespace Sys2Proof.Machine

/-- An address the block may use: 0x48..0x4B (R50). -/
abbrev LegalAddr (a : DevAddr) : Prop := 0x48 ≤ a.toNat ∧ a.toNat ≤ 0x4B

/-- The legal values of R32's table, and how the session state and the poll counter belong together (R27). -/
structure State.Inv (s : State) : Prop where
  addr : LegalAddr s.activeAddr
  mux : 4 ≤ s.activeMux.toNat
  range : s.rangeCode.toNat ≤ 5
  countLe : s.pollCount ≤ s.params.maxPolls
  countAwait : s.st = .await → s.params.maxPolls ≠ 0 → s.pollCount < s.params.maxPolls
  countTimedOut : s.st = .timedOut → s.params.maxPolls ≠ 0 ∧ s.pollCount = s.params.maxPolls

/-- The bytes of a configuration write the block may issue: pointer 0x01 and a word built from legal codes (R54, R102). -/
def ConfigFrame (bytes : List Byte) : Prop :=
  ∃ mux range rate : Code3, 4 ≤ mux.toNat ∧ range.toNat ≤ 5 ∧
    bytes = [0x01, hiByte (buildConfigWord mux range rate), loByte (buildConfigWord mux range rate)]

/-- An event of one of the frames of R54, at a legal address: a configuration write, a pointer write of 0x01 or 0x00, or a
read of two bytes answered within the contract (R53). -/
def BusEvent.Framed : BusEvent → Prop
  | .write a bytes _ => LegalAddr a ∧ (bytes = [0x01] ∨ bytes = [0x00] ∨ ConfigFrame bytes)
  | .read a n bytes => LegalAddr a ∧ n = 2 ∧ bytes.length ≤ 2

/-- Every event of the bus log is of one of the block's frames. -/
def State.LogFramed (s : State) : Prop := ∀ e ∈ s.busLog, e.Framed

/-- A failed bus access: ack 0, or fewer bytes than requested (R163). -/
def BusEvent.failed : BusEvent → Bool
  | .write _ _ ack => !ack
  | .read _ n bytes => decide (bytes.length < n)

/-- The events a step from `s` to `t` appended. -/
def newEvents (s t : State) : List BusEvent := t.busLog.drop s.busLog.length

/-- The collaborator keeps its contract: no listed answer has more than the two bytes the block requests (R53). -/
abbrev State.ContractKept (s : State) : Prop := ∀ bytes ∈ s.reads, bytes.length ≤ 2

/-- A poll step in `s` reads the device (R125, R126). -/
abbrev State.PollReads (s : State) : Prop := s.st = .await ∨ s.params.pollReadsWhenNotAwaiting = true

/-- The command word the next step accepts, if that step is an Accept (R31). -/
def State.acceptedWord (s : State) : Option Byte := if s.fetchBusy then none else s.hostCmds.head?

/-- The legal command the next step accepts, if it accepts one. -/
def State.accepted (s : State) : Option Instr :=
  match s.acceptedWord with
  | some w =>
    match decode w with
    | .ok i => some i
    | .error _ => none
  | none => none

/-- The outcome with `f` applied to its next state. -/
def outcomeMap (f : State → State) : Host.Outcome State Fault Refusal → Host.Outcome State Fault Refusal
  | .next t => .next (f t)
  | .fault r => .fault r
  | .refused r => .refused r

/-- The session registers but for the flag: `st`, `activeAddr`, `activeMux`, `pollCount` are unchanged. -/
abbrev SameSession (s t : State) : Prop :=
  t.st = s.st ∧ t.activeAddr = s.activeAddr ∧ t.activeMux = s.activeMux ∧ t.pollCount = s.pollCount

/-- The configuration registers are unchanged. -/
abbrev SameSettings (s t : State) : Prop := t.rangeCode = s.rangeCode ∧ t.rateCode = s.rateCode

/-- No bus access: the log and the collaborator's answers are unchanged. -/
abbrev SameBus (s t : State) : Prop :=
  t.busLog = s.busLog ∧ t.acks = s.acks ∧ t.reads = s.reads ∧ t.draws = s.draws

/-- An answer to a poll's read that does not end the wait: within the contract, and short or with bit 15 = 0 (R125). -/
abbrev NotDone (bytes : List Byte) : Prop := bytes.length ≤ 2 ∧ pollDone bytes = false

/-- A run ends where `fetchBusy = 0` and the host offers no command (R192). -/
def State.Ended (s : State) : Prop := s.fetchBusy = false ∧ s.hostCmds = []

/-- The result of a run: the response words, the final register values and the bus log (R192). -/
structure RunResult where
  responses : List RespWord
  st : SessionState
  activeAddr : DevAddr
  activeMux : Code3
  rangeCode : Code3
  rateCode : Code3
  busErr : Bool
  pollCount : Nat
  fetchBusy : Bool
  busLog : List BusEvent
  deriving DecidableEq, Repr

/-- The result a state holds (R192). -/
def State.result (s : State) : RunResult :=
  ⟨s.responses, s.st, s.activeAddr, s.activeMux, s.rangeCode, s.rateCode, s.busErr, s.pollCount, s.fetchBusy, s.busLog⟩

/-- A hang: a run in which `fetchBusy = 1` forever (R178 c, R192). -/
def State.Hangs (s : State) : Prop := ∀ k, ∃ t, Sys2Proof.core.run k s = .next t ∧ t.fetchBusy = true

end Sys2Proof.Machine
end

