-- ==== Sys2Proof/Certificates/Slice0/Obligations.lean ====
section
/-! DEFINITION. The statements for the provers, from the spec's numbered rules. They hold for every parameter (R12) and for
every answer of the bus collaborator (R52, R53), since both stand in the state or are free values. -/

open Sys2Proof Sys2Proof.Machine

/-! ### Command words -/

/-- 30_encoding.md, the opcode map: the encoder and the decoder agree, in both directions. -/
def Obligations.DecodeEncodeRoundTrip : Prop :=
  (∀ i : Instr, i.wf = true → decode (encode i) = .ok i) ∧
    (∀ (w : Byte) (i : Instr), decode w = .ok i → i.wf = true ∧ encode i = w)

/-- R82: every legal word, each command's, and that there are 33 of them. -/
def Obligations.OpcodeMapLegalWords : Prop :=
  decode 0x00 = .ok .nop ∧
    (∀ p : Fin 16, decode (BitVec.ofNat 8 (0x10 + p)) = .ok (.trigger (BitVec.ofNat 4 p))) ∧
    (∀ r : Fin 6, decode (BitVec.ofNat 8 (0x20 + r)) = .ok (.setrange (BitVec.ofNat 3 r))) ∧
    (∀ t : Fin 8, decode (BitVec.ofNat 8 (0x30 + t)) = .ok (.setrate (BitVec.ofNat 3 t))) ∧
    decode 0x40 = .ok .poll ∧ decode 0x50 = .ok .fetch ∧
    (List.finRange 256).countP (fun w => (decode (BitVec.ofNat 8 w.val)).toBool) = 33

/-- R84: the illegal words by class, and that there are 223 of them. -/
def Obligations.IllegalWordsByClass : Prop :=
  (∀ w : Byte,
    (decode w = .error .opUnassigned ↔ 0x60 ≤ w.toNat) ∧
    (decode w = .error .operandNotZero ↔
      (0x01 ≤ w.toNat ∧ w.toNat ≤ 0x0F) ∨ (0x41 ≤ w.toNat ∧ w.toNat ≤ 0x4F) ∨ (0x51 ≤ w.toNat ∧ w.toNat ≤ 0x5F)) ∧
    (decode w = .error .argBit3Set ↔
      (0x28 ≤ w.toNat ∧ w.toNat ≤ 0x2F) ∨ (0x38 ≤ w.toNat ∧ w.toNat ≤ 0x3F)) ∧
    (decode w = .error .rangeCodeUnassigned ↔ w.toNat = 0x26 ∨ w.toNat = 0x27)) ∧
    (List.finRange 256).countP (fun w => !(decode (BitVec.ofNat 8 w.val)).toBool) = 223

/-- 95_test_vectors.md E4: one word of each family. -/
def Obligations.SampleWordsDecode : Prop :=
  decode 0x00 = .ok .nop ∧ decode 0x15 = .ok (.trigger 5) ∧ decode 0x1F = .ok (.trigger 15) ∧
    decode 0x25 = .ok (.setrange 5) ∧ decode 0x37 = .ok (.setrate 7) ∧ decode 0x40 = .ok .poll ∧
    decode 0x50 = .ok .fetch ∧ decode 0x26 = .error .rangeCodeUnassigned ∧ decode 0x38 = .error .argBit3Set

/-! ### The encoder -/

/-- R100: the address and the mux code of every port, its corner cases and its example. -/
def Obligations.SelectDeviceFormula : Prop :=
  (∀ port : BitVec 4,
    (selectDevice port).1.toNat = 0x48 + port.toNat / 4 ∧ (selectDevice port).2.toNat = 4 + port.toNat % 4) ∧
    selectDevice 0 = (0x48, 4) ∧ selectDevice 3 = (0x48, 7) ∧ selectDevice 4 = (0x49, 4) ∧
    selectDevice 15 = (0x4B, 7) ∧ selectDevice 6 = (0x49, 6)

/-- 40_encoder.md section on selectDevice, "[derived: from rule R100]": a bijection onto {0x48..0x4B} x {4..7}, with its
inverse. -/
def Obligations.SelectDeviceBijection : Prop :=
  (∀ port : BitVec 4, LegalAddr (selectDevice port).1 ∧ 4 ≤ (selectDevice port).2.toNat ∧
    port.toNat = 4 * ((selectDevice port).1.toNat - 0x48) + ((selectDevice port).2.toNat - 4)) ∧
    (∀ i j : Fin 4, selectDevice (BitVec.ofNat 4 (4 * i + j)) = (BitVec.ofNat 7 (0x48 + i), BitVec.ofNat 3 (4 + j)))

/-- R102: the word of every legal operand, as the OR of the pseudocode, which is a sum, its fixed bits, its bounds and
its example. -/
def Obligations.ConfigWordOfLegalCodes : Prop :=
  (∀ (m : Fin 4) (r : Fin 6) (t : Fin 8),
    let w := buildConfigWord (BitVec.ofNat 3 (4 + m)) (BitVec.ofNat 3 r) (BitVec.ofNat 3 t)
    w = BitVec.ofNat 16 (0x0003 ||| (t.val <<< 5) ||| 0x0100 ||| (r.val <<< 9) ||| ((4 + m.val) <<< 12) ||| 0x8000) ∧
      w.toNat = 0x0003 + (t.val <<< 5) + 0x0100 + (r.val <<< 9) + ((4 + m.val) <<< 12) + 0x8000 ∧
      w.getLsbD 15 = true ∧ w.getLsbD 8 = true ∧ w.extractLsb' 0 5 = 0b00011#5 ∧ w.getLsbD 14 = true ∧
      0xC103 ≤ w.toNat ∧ w.toNat ≤ 0xFBE3) ∧
    buildConfigWord 4 0 0 = 0xC103 ∧ buildConfigWord 7 5 7 = 0xFBE3 ∧ buildConfigWord 4 2 4 = 0xC583

/-- 40_encoder.md, properties of buildConfigWord, "[derived: from rule R102]", for every code a register can hold: the
fields read back, so the word determines its operands, and a change of one operand changes only its field. -/
def Obligations.ConfigWordFieldsDisjoint : Prop :=
  (∀ mux range rate : Code3,
    let w := buildConfigWord mux range rate
    cfgOs w = true ∧ cfgMux w = mux ∧ cfgPga w = range ∧ cfgMode w = true ∧ cfgDr w = rate ∧ cfgComp w = 0b00011) ∧
    (∀ m1 g1 t1 m2 g2 t2 : Code3,
      buildConfigWord m1 g1 t1 ^^^ buildConfigWord m2 g2 t2 =
        ((m1 ^^^ m2).setWidth 16 <<< 12) ||| ((g1 ^^^ g2).setWidth 16 <<< 9) ||| ((t1 ^^^ t2).setWidth 16 <<< 5)) ∧
    (∀ m1 g1 t1 m2 g2 t2 : Code3,
      buildConfigWord m1 g1 t1 = buildConfigWord m2 g2 t2 ↔ m1 = m2 ∧ g1 = g2 ∧ t1 = t2)

/-- R104: the encoder combined, its example, and that TRIGGER responds with its word. -/
def Obligations.EncoderCombined : Prop :=
  (∀ (port : BitVec 4) (range rate : Code3),
    encodeConversion port range rate =
      ((selectDevice port).1, (selectDevice port).2, buildConfigWord (selectDevice port).2 range rate)) ∧
    encodeConversion 13 1 7 = (0x4B, 5, 0xD3E3) ∧
    (∀ (port : BitVec 4) (s : State), ∃ t r, exec (.trigger port) s = .next t ∧ t.responses = s.responses ++ [r] ∧
      t.activeAddr = (encodeConversion port s.rangeCode s.rateCode).1 ∧
      t.activeMux = (encodeConversion port s.rangeCode s.rateCode).2.1 ∧
      respData r = (encodeConversion port s.rangeCode s.rateCode).2.2)

/-- 20_memory.md section 3 and 00_scope.md section 5: big-endian both ways, and the signed value of a word. -/
def Obligations.BigEndianBytes : Prop :=
  (∀ w : Word16, joinBytes (hiByte w) (loByte w) = w) ∧
    (∀ b0 b1 : Byte, hiByte (joinBytes b0 b1) = b0 ∧ loByte (joinBytes b0 b1) = b1 ∧
      (joinBytes b0 b1).toNat = b0.toNat * 256 + b1.toNat ∧ wordOfBytes [b0, b1] = some (joinBytes b0 b1)) ∧
    (∀ w : Word16, s16 w = w.toInt) ∧
    (∀ (a : DevAddr) (w : Word16) (s : State), (writeConfig a w s).1.busLog =
      s.busLog ++ [.write a [0x01, hiByte w, loByte w] (writeConfig a w s).2])

/-- 30_encoding.md section 3: the fields of a response word stand where R90 puts them, and every code of R91 and R20. -/
def Obligations.ResponseWordFields : Prop :=
  (∀ (err : Bool) (status : Status) (st : SessionState) (data : Word16),
    let r := responseWord err status st data
    respErr r = err ∧ respStatus r = statusCode status ∧ statusOfCode (respStatus r) = some status ∧
      respState r = stateCode st ∧ stateOfCode (respState r) = st ∧ respData r = data) ∧
    statusCode .ok = 0 ∧ statusCode .notReady = 1 ∧ statusCode .timedOut = 2 ∧ statusCode .busError = 3 ∧
    statusCode .illegal = 4 ∧ stateCode .idle = 0b00 ∧ stateCode .await = 0b01 ∧ stateCode .ready = 0b10 ∧
    stateCode .timedOut = 0b11

/-! ### The bus primitives -/

/-- 20_memory.md section 2, BusWrite: a write appends its event with the ack it returns and changes no register; the ack
may be either bit. The oracle draw is modelled by the listed answers and, past them, by free values (the model's choice,
log entries 4 and 6): a write consumes the listed ack it returns and no read answer, and advances the index of the next
free value. -/
def Obligations.BusWriteLogsItsAck : Prop :=
  (∀ (a : DevAddr) (bytes : List Byte) (s : State),
    (busWrite a bytes s).1.result =
      { s.result with busLog := s.busLog ++ [.write a bytes (busWrite a bytes s).2] }) ∧
    (∀ (a : DevAddr) (bytes : List Byte) (s : State) (k : Bool) (ks : List Bool),
      busWrite a bytes { s with acks := k :: ks } =
        ({ s with acks := ks, draws := s.draws + 1, busLog := s.busLog ++ [.write a bytes k] }, k)) ∧
    (∀ (a : DevAddr) (bytes : List Byte) (s : State), ∃ k,
      busWrite a bytes { s with acks := [] } =
        ({ s with acks := [], draws := s.draws + 1, busLog := s.busLog ++ [.write a bytes k] }, k))

/-- 20_memory.md section 2, BusRead: a read returns the collaborator's bytes, any 0..n of them, logs them and changes no
register; an answer of more than n bytes is refused. The oracle draw is modelled by the listed answers and, past them,
by free values (the model's choice, log entries 4 and 6): a read consumes the listed answer it returns and no ack, and
advances the index of the next free value. -/
def Obligations.BusReadWithinContract : Prop :=
  (∀ (a : DevAddr) (n : Nat) (s : State) (bytes : List Byte) (rest : List (List Byte)),
    match busRead a n { s with reads := bytes :: rest } with
    | .ok (t, got) => bytes.length ≤ n ∧ got = bytes ∧
      t = { s with reads := rest, draws := s.draws + 1, busLog := s.busLog ++ [.read a n bytes] }
    | .error r => n < bytes.length ∧ r = .overlongReadAnswer) ∧
    (∀ (a : DevAddr) (n : Nat) (s : State), ∃ bytes,
      bytes.length ≤ n ∧ busRead a n { s with reads := [] } =
        .ok ({ s with reads := [], draws := s.draws + 1, busLog := s.busLog ++ [.read a n bytes] }, bytes))

/-! ### NOP, SETRANGE, SETRATE, illegal words -/

/-- R110: NOP changes no register, makes no bus access and responds OK with the state; the words 0x01..0x0F are
illegal. -/
def Obligations.NopResult : Prop :=
  decode 0x00 = .ok .nop ∧ (∀ k : Fin 15, decode (BitVec.ofNat 8 (0x01 + k)) = .error .operandNotZero) ∧
    (∀ s : State, exec .nop s = .next { s with responses := s.responses ++ [responseWord s.busErr .ok s.st 0x0000] }) ∧
    (∀ p : Params, exec .nop (State.resetWith p) = .next { State.resetWith p with responses := [0x000000] })

/-- 41_config.md, NOP, "[derived: from rule R110 and 30_encoding.md rule R90]": the value of NOP's response word. -/
def Obligations.NopResponseWord : Prop :=
  ∀ s : State, ∃ t r, exec .nop s = .next t ∧ t.responses = s.responses ++ [r] ∧ respStatus r = 0 ∧
    r.toNat = s.busErr.toNat <<< 21 ||| (stateCode s.st).toNat <<< 16

/-- R112: SETRANGE writes `rangeCode` and nothing else and responds OK; the next TRIGGER uses it; its illegal words
change no state. -/
def Obligations.SetrangeResult : Prop :=
  (∀ r : Fin 6, decode (BitVec.ofNat 8 (0x20 ||| r.val)) = .ok (.setrange (BitVec.ofNat 3 r))) ∧
    (∀ r : Fin 6, ∀ s : State, exec (.setrange (BitVec.ofNat 3 r)) s = .next { s with
      rangeCode := BitVec.ofNat 3 r, responses := s.responses ++ [responseWord s.busErr .ok s.st 0x0000] }) ∧
    (∀ k : Fin 10, ∀ s : State, ∃ e, decode (BitVec.ofNat 8 (0x26 + k)) = .error e ∧
      runWord (BitVec.ofNat 8 (0x26 + k)) s =
        .next { s with responses := s.responses ++ [responseWord s.busErr .illegal s.st 0x0000] }) ∧
    (∀ p : Params, ∃ t u ack, exec (.setrange 1) (State.resetWith { p with resetRange := 2, resetRate := 4 }) = .next t ∧
      exec (.trigger 0) t = .next u ∧ u.busLog = [.write 0x48 [0x01, 0xC3, 0x83] ack])

/-- R114: SETRATE writes `rateCode` and nothing else and responds OK; the next TRIGGER uses it; 0x38..0x3F are illegal. -/
def Obligations.SetrateResult : Prop :=
  (∀ t : Fin 8, decode (BitVec.ofNat 8 (0x30 ||| t.val)) = .ok (.setrate (BitVec.ofNat 3 t))) ∧
    (∀ k : Fin 8, decode (BitVec.ofNat 8 (0x38 + k)) = .error .argBit3Set) ∧
    (∀ (t : Code3) (s : State), exec (.setrate t) s = .next { s with
      rateCode := t, responses := s.responses ++ [responseWord s.busErr .ok s.st 0x0000] }) ∧
    (∀ p : Params, ∃ t u ack, exec (.setrate 7) (State.resetWith { p with resetRange := 2, resetRate := 4 }) = .next t ∧
      exec (.trigger 0) t = .next u ∧ u.busLog = [.write 0x48 [0x01, 0xC5, 0xE3] ack])

/-- R161: an accepted illegal word, whatever its class, responds ILLEGAL and changes no register and makes no bus
access. -/
def Obligations.IllegalWordResponse : Prop :=
  (∀ (s : State) (w : Byte) (rest : List Byte) (e : IllegalWord),
    s.fetchBusy = false → s.hostCmds = w :: rest → decode w = .error e →
      step s = .next { s with
        hostCmds := rest, responses := s.responses ++ [responseWord s.busErr .illegal s.st 0x0000] }) ∧
    (∀ s : State, s.fetchBusy = false → s.st = .await → s.busErr = false → s.hostCmds = [0x26] →
      step s = .next { s with hostCmds := [], responses := s.responses ++ [0x110000] })

/-! ### TRIGGER -/

/-- R120: everything TRIGGER does, for every port in every state and for either ack, and its example. -/
def Obligations.TriggerResult : Prop :=
  (∀ p : Fin 16, decode (BitVec.ofNat 8 (0x10 ||| p.val)) = .ok (.trigger (BitVec.ofNat 4 p))) ∧
    (∀ (p : BitVec 4) (s : State),
      let addr := (selectDevice p).1
      let w := buildConfigWord (selectDevice p).2 s.rangeCode s.rateCode
      let ack := nextAck addr [0x01, hiByte w, loByte w] s
      ∃ t, exec (.trigger p) s = .next t ∧ t.result = { s.result with
        activeAddr := addr, activeMux := (selectDevice p).2, st := .await, pollCount := 0, busErr := !ack
        busLog := s.busLog ++ [.write addr [0x01, hiByte w, loByte w] ack]
        responses := s.responses ++ [responseWord (!ack) (if ack then .ok else .busError) .await w] }) ∧
    (∀ p : Params, ∃ t, exec (.trigger 5) { State.resetWith { p with resetRange := 2, resetRate := 4 } with acks := [true] } =
        .next t ∧
      t.busLog = [.write 0x49 [0x01, 0xD5, 0x83] true] ∧ t.activeAddr = 0x49 ∧ t.activeMux = 5 ∧ t.st = .await ∧
      t.responses = [0x01D583])

/-- R121: a TRIGGER starts a new session in every state and keeps no trace of the old one: its next state does not
depend on the session registers it finds. -/
def Obligations.TriggerDiscardsOldSession : Prop :=
  ∀ (p : BitVec 4) (s : State) (st : SessionState) (a : DevAddr) (m : Code3) (n : Nat) (e : Bool),
    exec (.trigger p) { s with st := st, activeAddr := a, activeMux := m, pollCount := n, busErr := e } =
        exec (.trigger p) s ∧
      ∃ t, exec (.trigger p) s = .next t ∧ t.st = .await

/-! ### The poll step and POLL -/

/-- R125: the poll step in AWAIT, whole: its two accesses, `fail`, `data`, `done`, the flag, the count and its limit. -/
def Obligations.PollStepInAwait : Prop :=
  ∀ s : State, s.st = .await → readOverlong 2 s = false →
    let a := registerAnswer 0x01 s
    let fail := !a.ack || decide (a.bytes.length < 2)
    let data : Word16 := match a.bytes with
      | [b0, b1] => b0 ++ b1
      | _ => 0x0000
    a.bytes.length ≤ 2 ∧
      ∃ t, pollStep s = .ok (t, ⟨fail, data⟩) ∧ t.hostCmds = s.hostCmds ∧ t.result = { s.result with
        busErr := s.busErr || fail
        st := if data.getLsbD 15 then .ready
          else if s.params.maxPolls ≠ 0 ∧ s.pollCount + 1 = s.params.maxPolls then .timedOut else .await
        pollCount := if data.getLsbD 15 ∨ s.params.maxPolls = 0 then s.pollCount else s.pollCount + 1
        busLog := s.busLog ++ [.write s.activeAddr [0x01] a.ack, .read s.activeAddr 2 a.bytes] }

/-- R126: the poll step in IDLE, READY and TIMEDOUT, under both settings of the parameter. -/
def Obligations.PollStepElsewhere : Prop :=
  ∀ s : State, s.st ≠ .await →
    (s.params.pollReadsWhenNotAwaiting = false → pollStep s = .ok (s, ⟨false, 0x0000⟩)) ∧
      (s.params.pollReadsWhenNotAwaiting = true → readOverlong 2 s = false →
        let a := registerAnswer 0x01 s
        let fail := !a.ack || decide (a.bytes.length < 2)
        ∃ t, pollStep s = .ok (t, ⟨fail, 0x0000⟩) ∧ t.hostCmds = s.hostCmds ∧ t.result = { s.result with
          busErr := s.busErr || fail
          busLog := s.busLog ++ [.write s.activeAddr [0x01] a.ack, .read s.activeAddr 2 a.bytes] })

/-- R127: POLL answers in every state in which its reads, if it makes any, keep the contract: the poll step, then one
response; only bit 15 of the word read counts. -/
def Obligations.PollResult : Prop :=
  decode 0x40 = .ok .poll ∧ (∀ k : Fin 15, decode (BitVec.ofNat 8 (0x41 + k)) = .error .operandNotZero) ∧
    (∀ s : State, (s.PollReads → readOverlong 2 s = false) →
      ∃ t a, pollStep s = .ok (t, a) ∧ exec .poll s = .next { t with
        responses := t.responses ++ [responseWord t.busErr
          (if t.st = .timedOut then .timedOut else if a.fail then .busError else .ok) t.st a.data] }) ∧
    (∀ (s : State) (b0 b1 : Byte) (rest : List (List Byte)) (ks : List Bool), s.st = .await → s.params.maxPolls = 0 →
      s.reads = [b0, b1] :: rest → s.acks = true :: ks → ∃ t, exec .poll s = .next t ∧
        t.st = (if b0.getLsbD 7 then .ready else .await) ∧
        t.responses = s.responses ++ [responseWord s.busErr .ok t.st (joinBytes b0 b1)]) ∧
    (∀ (s : State) (bytes : List Byte) (rest : List (List Byte)), s.st = .await → s.params.maxPolls = 0 →
      s.reads = bytes :: rest → bytes.length < 2 → ∃ t, exec .poll s = .next t ∧ t.st = .await ∧
        t.responses = s.responses ++ [responseWord true .busError .await 0x0000]) ∧
    (∀ s : State, s.st ≠ .await → s.params.pollReadsWhenNotAwaiting = false →
      exec .poll s = .next { s with responses := s.responses ++ [responseWord s.busErr
        (if s.st = .timedOut then .timedOut else .ok) s.st 0x0000] })

/-- 42_conversion.md, "POLL properties", with "[derived: from rule R125]": polls that read not done leave AWAIT only
at the limit, which the MAX_POLLS-th reaches, for any number of polls; the poll that reads done gives READY, and READY
stays. -/
def Obligations.NotDonePollsUpToLimit : Prop :=
  (∀ (k : Nat) (s : State) (rest : List Byte), s.fetchBusy = false → s.st = .await → k ≤ s.reads.length →
    (∀ bytes ∈ s.reads.take k, NotDone bytes) → s.hostCmds = List.replicate k 0x40 ++ rest →
    (s.params.maxPolls = 0 ∨ s.pollCount + k ≤ s.params.maxPolls) →
    ∃ t, Sys2Proof.core.run k s = .next t ∧ t.hostCmds = rest ∧
      t.responses.length = s.responses.length + k ∧
      t.pollCount = (if s.params.maxPolls = 0 then s.pollCount else s.pollCount + k) ∧
      t.st = (if s.params.maxPolls ≠ 0 ∧ k ≠ 0 ∧ s.pollCount + k = s.params.maxPolls then .timedOut else .await)) ∧
    (∀ (s : State) (bytes : List Byte) (rest : List (List Byte)), s.st = .await → s.reads = bytes :: rest →
      bytes.length ≤ 2 → pollDone bytes = true → ∃ t, exec .poll s = .next t ∧ t.st = .ready) ∧
    (∀ s : State, s.st = .ready → readOverlong 2 s = false → ∃ t, exec .poll s = .next t ∧ t.st = .ready)

/-- 90_conflicts.md C1: the two settings of POLL_READS_WHEN_NOT_AWAITING give a POLL the same registers but for
`busErr`, and the same data field. -/
def Obligations.PollParameterMovesOnlyTraffic : Prop :=
  ∀ (s : State), readOverlong 2 s = false →
    ∃ t u r q,
      exec .poll { s with params := { s.params with pollReadsWhenNotAwaiting := false } } = .next t ∧
      exec .poll { s with params := { s.params with pollReadsWhenNotAwaiting := true } } = .next u ∧
      SameSession t u ∧ SameSettings t u ∧ t.fetchBusy = u.fetchBusy ∧
      t.responses = s.responses ++ [r] ∧ u.responses = s.responses ++ [q] ∧
      respData r = respData q ∧ respState r = respState q

/-! ### FETCH -/

/-- R130: FETCH's acceptance sets `fetchBusy` and nothing else, with no response; from then on the steps are Iterate
steps. -/
def Obligations.FetchAcceptance : Prop :=
  decode 0x50 = .ok .fetch ∧ (∀ k : Fin 15, decode (BitVec.ofNat 8 (0x51 + k)) = .error .operandNotZero) ∧
    (∀ s : State, exec .fetch s = .next { s with fetchBusy := true }) ∧
    (∀ s : State, s.fetchBusy = true → step s = fetchIterate s)

/-- R131: one Iterate step, by the state its poll step leaves: wait, time out, nothing to fetch, or the result read. -/
def Obligations.FetchIteration : Prop :=
  ∀ (s t : State) (a : PollAnswer), s.fetchBusy = true → pollStep s = .ok (t, a) →
    (t.st = .await → step s = .next t) ∧
    (t.st = .timedOut → step s = .next { t with
      fetchBusy := false, responses := t.responses ++ [responseWord t.busErr .timedOut .timedOut 0xFFFE] }) ∧
    (t.st = .idle → step s = .next { t with
      fetchBusy := false, responses := t.responses ++ [responseWord t.busErr .notReady .idle 0xFFFE] }) ∧
    (t.st = .ready → readOverlong 2 t = false →
      let q := registerAnswer 0x00 t
      let log := t.busLog ++ [.write t.activeAddr [0x00] q.ack, .read t.activeAddr 2 q.bytes]
      (∀ b0 b1 : Byte, q.ack = true → q.bytes = [b0, b1] → ∃ v, step s = .next v ∧ v.result = { t.result with
        st := .idle, fetchBusy := false, busLog := log
        responses := t.responses ++ [responseWord t.busErr .ok .idle (b0 ++ b1)] }) ∧
      (q.ack = false ∨ q.bytes.length ≠ 2 → ∃ v, step s = .next v ∧ v.result = { t.result with
        st := .idle, fetchBusy := false, busErr := true, busLog := log
        responses := t.responses ++ [responseWord true .busError .idle 0xFFFE] }))

/-- 42_conversion.md, "FETCH properties": after a completed conversion FETCH returns the two bytes big-endian and
leaves IDLE; "[derived: from rule R131]" from IDLE it performs no result-register read. -/
def Obligations.FetchReturnsTheResultBytes : Prop :=
  (∀ (s : State) (b0 b1 : Byte) (rest : List (List Byte)) (ks : List Bool), s.fetchBusy = true → s.st = .ready →
    s.params.pollReadsWhenNotAwaiting = false → s.reads = [b0, b1] :: rest → s.acks = true :: ks →
    ∃ t, step s = .next t ∧ t.st = .idle ∧ t.fetchBusy = false ∧
      t.responses = s.responses ++ [responseWord s.busErr .ok .idle (joinBytes b0 b1)]) ∧
    s16 (joinBytes 0x0F 0xA0) = 4000 ∧ s16 (joinBytes 0xFF 0x38) = -200 ∧
    (∀ s : State, s.fetchBusy = true → s.st = .idle → (s.PollReads → readOverlong 2 s = false) →
      ∃ t, step s = .next t ∧ t.responses = s.responses ++ [responseWord t.busErr .notReady .idle 0xFFFE] ∧
        (∀ a ack, BusEvent.write a [0x00] ack ∉ newEvents s t) ∧
        (s.params.pollReadsWhenNotAwaiting = false → t.busLog = s.busLog))

/-- R165: FETCH from IDLE reports NOT_READY and from TIMEDOUT reports TIMED_OUT, each with the data 0xFFFE. -/
def Obligations.FetchWithNothingReady : Prop :=
  ∀ s : State, s.fetchBusy = true → (s.PollReads → readOverlong 2 s = false) →
    (s.st = .idle → ∃ t, step s = .next t ∧ t.st = .idle ∧ t.fetchBusy = false ∧
      t.responses = s.responses ++ [responseWord t.busErr .notReady .idle 0xFFFE]) ∧
    (s.st = .timedOut → ∃ t, step s = .next t ∧ t.st = .timedOut ∧ t.fetchBusy = false ∧
      t.responses = s.responses ++ [responseWord t.busErr .timedOut .timedOut 0xFFFE])

/-- 60_exceptions.md section 1: an OK sample is the two bytes the last read of the step returned, after an
acknowledged pointer write of 0x00; no sample is fabricated. -/
def Obligations.FetchSampleWasRead : Prop :=
  ∀ (s t : State) (r : RespWord), s.fetchBusy = true → step s = .next t → t.responses = s.responses ++ [r] →
    respStatus r = 0 →
    t.st = .idle ∧ ∃ (b0 b1 : Byte) (before : List BusEvent),
      t.busLog = s.busLog ++ before ++ [.write s.activeAddr [0x00] true, .read s.activeAddr 2 [b0, b1]] ∧
      respData r = joinBytes b0 b1

/-- 42_conversion.md, "The unbounded wait": with MAX_POLLS = 0, as long as the polls read not done, a waiting FETCH takes
Iterate steps, responds nothing and accepts nothing, for any number of steps. -/
def Obligations.FetchWaitsWithoutLimit : Prop :=
  ∀ (k : Nat) (s : State), s.fetchBusy = true → s.st = .await → s.params.maxPolls = 0 → k ≤ s.reads.length →
    (∀ bytes ∈ s.reads.take k, NotDone bytes) →
    ∃ t, Sys2Proof.core.run k s = .next t ∧ t.fetchBusy = true ∧ t.st = .await ∧ t.pollCount = s.pollCount ∧
      t.responses = s.responses ∧ t.hostCmds = s.hostCmds ∧ t.busLog.length = s.busLog.length + 2 * k

/-- 42_conversion.md, "The unbounded wait", "[derived: from rule R125]": with MAX_POLLS = N > 0 a FETCH waiting in AWAIT
completes within at most N - pollCount Iterate steps, whatever the collaborator answers. -/
def Obligations.FetchCompletesWithinLimit : Prop :=
  ∀ s : State, s.fetchBusy = true → s.st = .await → s.pollCount < s.params.maxPolls → s.ContractKept →
    ∃ (k : Nat) (t : State) (r : RespWord), 1 ≤ k ∧ k ≤ s.params.maxPolls - s.pollCount ∧
      Sys2Proof.core.run k s = .next t ∧ t.fetchBusy = false ∧ t.responses = s.responses ++ [r] ∧
      (t.st = .idle ∨ t.st = .timedOut)

/-- 60_exceptions.md section 4 and 42_conversion.md, "The unbounded wait": with MAX_POLLS > 0 no legal state hangs. -/
def Obligations.NoHangWithLimit : Prop :=
  ∀ s : State, s.Inv → s.ContractKept → s.params.maxPolls ≠ 0 → ¬ s.Hangs

/-! ### Steps -/

/-- R31: the two kinds of step, and that without an offered command and a waiting FETCH there is none. -/
def Obligations.StepRunsTheAcceptedCommand : Prop :=
  (∀ s : State, s.fetchBusy = true → step s = fetchIterate s) ∧
    (∀ (s : State) (w : Byte) (rest : List Byte) (i : Instr), s.fetchBusy = false → s.hostCmds = w :: rest →
      decode w = .ok i → step s = exec i { s with hostCmds := rest }) ∧
    (∀ (s : State) (w : Byte) (rest : List Byte) (e : IllegalWord), s.fetchBusy = false → s.hostCmds = w :: rest →
      decode w = .error e → step s = execIllegal { s with hostCmds := rest }) ∧
    (∀ s : State, s.fetchBusy = false → s.hostCmds = [] → ∀ t, step s ≠ .next t)

/-- 60_exceptions.md section 4, log entries 3 and 5 (the model's choice of refusals): a step is refused only at the
end of a run, under its own name, or on an answer of the collaborator that breaks its contract. -/
def Obligations.StepsRefusedOnlyByName : Prop :=
  ∀ (s : State) (r : Refusal), step s = .refused r →
    (r = .noCommandOffered ∧ s.Ended) ∨ (r = .overlongReadAnswer ∧ ∃ bytes ∈ s.reads.take 2, 2 < bytes.length)

/-- 10_state.md section 4, 60_exceptions.md section 4 and 70_reset_and_hazards.md section 5: while the collaborator keeps its contract, the block
has a step exactly when a command is offered or a FETCH waits, and the contract is still kept after it. -/
def Obligations.StepExistsUntilRunEnds : Prop :=
  ∀ s : State, s.ContractKept →
    ((∃ t, step s = .next t ∧ t.ContractKept) ↔ ¬ s.Ended)

/-- R92: no offered word is lost or reordered; a step emits one response or leaves a FETCH waiting, never both; only
FETCH's response is not emitted in the accepting step. -/
def Obligations.OneResponsePerCommand : Prop :=
  ∀ s t : State, step s = .next t →
    (s.fetchBusy = true → t.hostCmds = s.hostCmds) ∧
    (s.fetchBusy = false → ∃ w, s.hostCmds = w :: t.hostCmds) ∧
    (t.fetchBusy = true → s.fetchBusy = true ∨ s.accepted = some .fetch) ∧
    (s.accepted = some .fetch → t.fetchBusy = true) ∧
    ∃ rs, t.responses = s.responses ++ rs ∧ rs.length + t.fetchBusy.toNat = 1

/-- R91: every response carries a status of the table, produced by a command the table names, with the `busErr` and
`st` of the end of its step. -/
def Obligations.StatusesAsProduced : Prop :=
  (statusCode .ok = 0 ∧ statusCode .notReady = 1 ∧ statusCode .timedOut = 2 ∧ statusCode .busError = 3 ∧
    statusCode .illegal = 4) ∧
  ∀ s t : State, step s = .next t →
    t.responses = s.responses ∨ ∃ status data,
      t.responses = s.responses ++ [responseWord t.busErr status t.st data] ∧
      (status = .notReady → s.fetchBusy = true ∧ s.st = .idle) ∧
      (status = .timedOut → t.st = .timedOut ∧ (s.fetchBusy = true ∨ s.accepted = some .poll)) ∧
      (status = .busError → (newEvents s t).any BusEvent.failed = true ∧
        (s.fetchBusy = true ∨ s.accepted = some .poll ∨ ∃ p, s.accepted = some (.trigger p))) ∧
      (status = .illegal ↔ s.fetchBusy = false ∧ s.accepted = none)

/-- R164: the status of each command's response is the first condition of its row that holds, a failed access being
read off the events of the step; a failure in one of FETCH's polls is not in its status and shows in the `err` bit. -/
def Obligations.StatusPriority : Prop :=
  ∀ (s t : State) (r : RespWord), step s = .next t → t.responses = s.responses ++ [r] →
    let anyFailed := (newEvents s t).any BusEvent.failed
    let resultFailed := (t.busLog.drop (t.busLog.length - 2)).any BusEvent.failed
    respErr r = t.busErr ∧ (s.fetchBusy = true → s.busErr = true ∨ anyFailed = true → respErr r = true) ∧
    (s.fetchBusy = true → respStatus r =
      if t.st = .timedOut then 2 else if s.st = .idle then 1 else if resultFailed then 3 else 0) ∧
    (s.fetchBusy = false → s.accepted = none → respStatus r = 4) ∧
    (s.accepted = some .nop → respStatus r = 0) ∧
    (∀ x, s.accepted = some (.setrange x) → respStatus r = 0) ∧
    (∀ x, s.accepted = some (.setrate x) → respStatus r = 0) ∧
    (∀ p, s.accepted = some (.trigger p) → respStatus r = if anyFailed then 3 else 0) ∧
    (s.accepted = some .poll → respStatus r = if t.st = .timedOut then 2 else if anyFailed then 3 else 0) ∧
    s.accepted ≠ some .fetch

/-- 42_conversion.md section 4, "[derived: ...]": the transition table of `st`, with "done" and "not done" read off
the events of the step. -/
def Obligations.SessionTransitions : Prop :=
  ∀ s t : State, step s = .next t →
    (s.fetchBusy = true →
      (s.st = .idle → t.st = .idle ∧ t.fetchBusy = false) ∧
      (s.st = .ready → t.st = .idle ∧ t.fetchBusy = false) ∧
      (s.st = .timedOut → t.st = .timedOut ∧ t.fetchBusy = false) ∧
      (s.st = .await → (t.st = .await ∧ t.fetchBusy = true) ∨ ((t.st = .idle ∨ t.st = .timedOut) ∧ t.fetchBusy = false))) ∧
    (s.fetchBusy = false →
      (∀ p, s.accepted = some (.trigger p) → t.st = .await) ∧
      (s.accepted = some .poll → s.st = .await → ∃ ack bytes,
        newEvents s t = [.write s.activeAddr [0x01] ack, .read s.activeAddr 2 bytes] ∧
        t.st = (if pollDone bytes then .ready
          else if s.params.maxPolls ≠ 0 ∧ s.pollCount + 1 = s.params.maxPolls then .timedOut else .await)) ∧
      (s.accepted = some .poll → s.st ≠ .await → t.st = s.st) ∧
      ((∀ p, s.accepted ≠ some (.trigger p)) → s.accepted ≠ some .poll → t.st = s.st))

/-- R26: `busErr` after a step is what it was, cleared first by TRIGGER alone, or set by a failed access of the step;
no step reads it but into bit 21 of a response. -/
def Obligations.BusErrSticky : Prop :=
  (∀ p : Params, (State.resetWith p).busErr = false) ∧
    (∀ s t : State, step s = .next t →
      t.busErr = ((match s.accepted with
        | some (.trigger _) => false
        | _ => s.busErr) || (newEvents s t).any BusEvent.failed)) ∧
    (∀ (s : State) (e : Bool),
      let blind := fun t : State => { t with
        busErr := false, responses := t.responses.map fun r => r &&& 0x1FFFFF }
      outcomeMap blind (step { s with busErr := e }) = outcomeMap blind (step s))

/-- 10_state.md section 3: `pollCount` is cleared by TRIGGER. A step that polls in AWAIT, by POLL or inside FETCH,
increments it exactly when the bytes its poll read, the step's second event, are not done and MAX_POLLS != 0, and the
increment that makes it MAX_POLLS moves `st` to TIMEDOUT. Everything else leaves it alone and enters TIMEDOUT from
nowhere else. -/
def Obligations.PollCountMoves : Prop :=
  ∀ s t : State, step s = .next t →
    (∀ p, s.accepted = some (.trigger p) → t.pollCount = 0) ∧
    (s.st = .await → s.fetchBusy = true ∨ s.accepted = some .poll → ∃ ack bytes rest,
      newEvents s t = .write s.activeAddr [0x01] ack :: .read s.activeAddr 2 bytes :: rest ∧
      (pollDone bytes = false → s.params.maxPolls ≠ 0 →
        t.pollCount = s.pollCount + 1 ∧ t.st = if t.pollCount = s.params.maxPolls then .timedOut else .await) ∧
      (pollDone bytes = true ∨ s.params.maxPolls = 0 → t.pollCount = s.pollCount ∧ t.st ≠ .timedOut)) ∧
    ((∀ p, s.accepted ≠ some (.trigger p)) → ¬(s.st = .await ∧ (s.fetchBusy = true ∨ s.accepted = some .poll)) →
      t.pollCount = s.pollCount ∧ (t.st = .timedOut → s.st = .timedOut))

/-- 41_config.md, "[derived: from 10_state.md rule R32]": the range and the rate are written by SETRANGE and SETRATE
alone; 70_reset_and_hazards.md section 2: the parameters never change during a run. -/
def Obligations.SettingsPersist : Prop :=
  ∀ s t : State, step s = .next t →
    t.params = s.params ∧
    t.rangeCode = (match s.accepted with
      | some (.setrange r) => r
      | _ => s.rangeCode) ∧
    t.rateCode = (match s.accepted with
      | some (.setrate x) => x
      | _ => s.rateCode)

/-- 10_state.md section 1: `activeAddr` and `activeMux` are written by TRIGGER alone, with selectDevice's output. -/
def Obligations.DeviceSelectedByTriggerOnly : Prop :=
  ∀ s t : State, step s = .next t →
    (t.activeAddr, t.activeMux) = (match s.accepted with
      | some (.trigger p) => selectDevice p
      | _ => (s.activeAddr, s.activeMux))

/-- 70_reset_and_hazards.md sections 2 and 3, "[derived: ...]": the order of SETRANGE and SETRATE does not matter, and
neither touches a conversion in flight. -/
def Obligations.SettingOrderIrrelevant : Prop :=
  ∀ (s : State) (r x : Code3), ∃ t u v,
    exec (.setrange r) s = .next t ∧ exec (.setrate x) t = .next v ∧
    exec (.setrate x) s = .next u ∧ exec (.setrange r) u = .next v ∧
    SameSession s v ∧ SameBus s v ∧ v.busErr = s.busErr

/-! ### Frames -/

/-- What each command leaves unchanged when it answers a next state (41_config.md and
42_conversion.md, "State written"). -/
def Obligations.CommandFrames : Prop :=
  ∀ (i : Instr) (s t : State), exec i s = .next t →
    t.params = s.params ∧ t.hostCmds = s.hostCmds ∧ (∃ es, t.busLog = s.busLog ++ es) ∧
    (∃ rs, t.responses = s.responses ++ rs) ∧
    (match i with
      | .nop => SameSession s t ∧ SameSettings s t ∧ SameBus s t ∧ t.busErr = s.busErr ∧ t.fetchBusy = s.fetchBusy
      | .setrange _ =>
        SameSession s t ∧ t.rateCode = s.rateCode ∧ SameBus s t ∧ t.busErr = s.busErr ∧ t.fetchBusy = s.fetchBusy
      | .setrate _ =>
        SameSession s t ∧ t.rangeCode = s.rangeCode ∧ SameBus s t ∧ t.busErr = s.busErr ∧ t.fetchBusy = s.fetchBusy
      | .trigger _ => SameSettings s t ∧ t.fetchBusy = s.fetchBusy ∧ t.reads = s.reads
      | .poll => SameSettings s t ∧ t.activeAddr = s.activeAddr ∧ t.activeMux = s.activeMux ∧ t.fetchBusy = s.fetchBusy
      | .fetch => SameSession s t ∧ SameSettings s t ∧ SameBus s t ∧ t.busErr = s.busErr ∧ t.responses = s.responses)

/-- What a FETCH iteration leaves unchanged (42_conversion.md section 3, "State written"), and that both logs only
grow. -/
def Obligations.FetchIterationFrame : Prop :=
  ∀ s t : State, s.fetchBusy = true → step s = .next t →
    SameSettings s t ∧ t.activeAddr = s.activeAddr ∧ t.activeMux = s.activeMux ∧ t.hostCmds = s.hostCmds ∧
    t.params = s.params ∧ (∃ es, t.busLog = s.busLog ++ es ∧ es.length ≤ 4) ∧ (∃ rs, t.responses = s.responses ++ rs)

/-! ### Invariants -/

/-- 10_state.md section 5, the legal values, with the counter's rules of section 3: every step keeps them. -/
def Obligations.StepKeepsRegistersLegal : Prop :=
  ∀ s t : State, s.Inv → step s = .next t → t.Inv

/-- The legal values hold after reset, for every legal choice of the parameters, and at State.reset with the parameters
the model chose (log entry 1). -/
def Obligations.ResetRegistersLegal : Prop :=
  (∀ p : Params, p.Legal → (State.resetWith p).Inv) ∧ State.reset.Inv

/-- 20_memory.md sections 1 and 2: the block puts only its own frames on the bus, at 0x48..0x4B, with the pointers
0x00 and 0x01. -/
def Obligations.StepKeepsLogFramed : Prop :=
  ∀ s t : State, s.Inv → s.LogFramed → step s = .next t → t.LogFramed

/-- R29: the bus log is empty at reset, each primitive appends its event, every step only appends, and no step reads
it. -/
def Obligations.BusLogOnlyAppended : Prop :=
  (∀ p : Params, (State.resetWith p).busLog = []) ∧
    (∀ (a : DevAddr) (bytes : List Byte) (s : State), (busWrite a bytes s).1.busLog =
      s.busLog ++ [.write a bytes (busWrite a bytes s).2]) ∧
    (∀ (a : DevAddr) (n : Nat) (s t : State) (bytes : List Byte), busRead a n s = .ok (t, bytes) →
      t.busLog = s.busLog ++ [.read a n bytes]) ∧
    (∀ s t : State, step s = .next t → ∃ es, t.busLog = s.busLog ++ es) ∧
    (∀ (s : State) (l : List BusEvent),
      step { s with busLog := l ++ s.busLog } = outcomeMap (fun t => { t with busLog := l ++ t.busLog }) (step s))

/-- 90_conflicts.md C6: with MAX_POLLS = 0 the state TIMEDOUT is not entered and the counter does not grow. -/
def Obligations.NoTimeoutWithoutLimit : Prop :=
  ∀ s t : State, s.params.maxPolls = 0 → s.st ≠ .timedOut → step s = .next t →
    t.st ≠ .timedOut ∧ t.pollCount ≤ s.pollCount

/-! ### Reset, the probe, the assembler -/

/-- R180: every register at its reset value, no bus access and no response, and only Accept steps after it. -/
def Obligations.ResetValues : Prop :=
  (∀ p : Params, (State.resetWith p).result =
    { responses := [], st := .idle, activeAddr := 0x48, activeMux := 4, rangeCode := p.resetRange, rateCode := p.resetRate
      busErr := false, pollCount := 0, fetchBusy := false, busLog := [] }) ∧
    (∀ (p : Params) (s : State), (hostReset p s).result = (State.resetWith p).result) ∧
    (∀ (p : Params) (s : State), step (hostReset p s) = acceptNext (hostReset p s))

/-- Log entry 8 (the model's choice): a reset of a running block leaves the words that wait and the collaborator alone and
fixes the parameters. -/
def Obligations.HostResetKeepsChannels : Prop :=
  ∀ (p : Params) (s : State), (hostReset p s).hostCmds = s.hostCmds ∧ (hostReset p s).acks = s.acks ∧
    (hostReset p s).reads = s.reads ∧ (hostReset p s).draws = s.draws ∧ (hostReset p s).params = p

/-- R151: bit i of the probe's mask is set exactly if address 0x48 + i makes at least one byte available; the example. -/
def Obligations.PresenceMaskBits : Prop :=
  (∀ (avail : DevAddr → Nat) (i : Fin 4),
    (presenceMask avail).getLsbD i = true ↔ 1 ≤ avail (BitVec.ofNat 7 (0x48 + i))) ∧
    presenceMask (fun a => if a = 0x48 then 2 else if a = 0x49 then 1 else if a = 0x4A then 0 else 3) = 0b1011

/-- 30_encoding.md section 5 and 60_exceptions.md section 1: what each assembly line encodes to, and that an operand
outside its range is refused, never wrapped. -/
def Obligations.AssemblerEncodesOrRefuses : Prop :=
  assembleLine .nop = some [0x00] ∧ assembleLine .poll = some [0x40] ∧ assembleLine .fetch = some [0x50] ∧
    (∀ n : Nat, assembleLine (.trigger n) = if n ≤ 15 then some [0x10 ||| BitVec.ofNat 8 n] else none) ∧
    (∀ n : Nat, assembleLine (.setrange n) = if n ≤ 5 then some [0x20 ||| BitVec.ofNat 8 n] else none) ∧
    (∀ n : Nat, assembleLine (.setrate n) = if n ≤ 7 then some [0x30 ||| BitVec.ofNat 8 n] else none) ∧
    (∀ n : Nat, assembleLine (.convert n) = assemble [.trigger n, .fetch]) ∧
    (∀ p r t : Nat, assembleLine (.sample p r t) = assemble [.setrange r, .setrate t, .trigger p, .fetch])
end

