-- ==== Sys2Proof/Laws/State.lean ====
section
/-! SUPPORT. One lemma per field per named update, true by rfl, so that no proof unfolds a record update. -/

namespace Sys2Proof.Machine

@[simp] theorem respond_st (status : Status) (data : Word16) (s : State) :
    (respond status data s).st = s.st := rfl

@[simp] theorem respond_activeAddr (status : Status) (data : Word16) (s : State) :
    (respond status data s).activeAddr = s.activeAddr := rfl

@[simp] theorem respond_activeMux (status : Status) (data : Word16) (s : State) :
    (respond status data s).activeMux = s.activeMux := rfl

@[simp] theorem respond_rangeCode (status : Status) (data : Word16) (s : State) :
    (respond status data s).rangeCode = s.rangeCode := rfl

@[simp] theorem respond_rateCode (status : Status) (data : Word16) (s : State) :
    (respond status data s).rateCode = s.rateCode := rfl

@[simp] theorem respond_busErr (status : Status) (data : Word16) (s : State) :
    (respond status data s).busErr = s.busErr := rfl

@[simp] theorem respond_pollCount (status : Status) (data : Word16) (s : State) :
    (respond status data s).pollCount = s.pollCount := rfl

@[simp] theorem respond_fetchBusy (status : Status) (data : Word16) (s : State) :
    (respond status data s).fetchBusy = s.fetchBusy := rfl

@[simp] theorem respond_busLog (status : Status) (data : Word16) (s : State) :
    (respond status data s).busLog = s.busLog := rfl

@[simp] theorem respond_responses (status : Status) (data : Word16) (s : State) :
    (respond status data s).responses = s.responses ++ [responseWord s.busErr status s.st data] := rfl

@[simp] theorem respond_hostCmds (status : Status) (data : Word16) (s : State) :
    (respond status data s).hostCmds = s.hostCmds := rfl

@[simp] theorem respond_acks (status : Status) (data : Word16) (s : State) :
    (respond status data s).acks = s.acks := rfl

@[simp] theorem respond_reads (status : Status) (data : Word16) (s : State) :
    (respond status data s).reads = s.reads := rfl

@[simp] theorem respond_draws (status : Status) (data : Word16) (s : State) :
    (respond status data s).draws = s.draws := rfl

@[simp] theorem respond_params (status : Status) (data : Word16) (s : State) :
    (respond status data s).params = s.params := rfl

@[simp] theorem afterWrite_st (a : DevAddr) (bytes : List Byte) (s : State) :
    (afterWrite a bytes s).st = s.st := rfl

@[simp] theorem afterWrite_activeAddr (a : DevAddr) (bytes : List Byte) (s : State) :
    (afterWrite a bytes s).activeAddr = s.activeAddr := rfl

@[simp] theorem afterWrite_activeMux (a : DevAddr) (bytes : List Byte) (s : State) :
    (afterWrite a bytes s).activeMux = s.activeMux := rfl

@[simp] theorem afterWrite_rangeCode (a : DevAddr) (bytes : List Byte) (s : State) :
    (afterWrite a bytes s).rangeCode = s.rangeCode := rfl

@[simp] theorem afterWrite_rateCode (a : DevAddr) (bytes : List Byte) (s : State) :
    (afterWrite a bytes s).rateCode = s.rateCode := rfl

@[simp] theorem afterWrite_busErr (a : DevAddr) (bytes : List Byte) (s : State) :
    (afterWrite a bytes s).busErr = s.busErr := rfl

@[simp] theorem afterWrite_pollCount (a : DevAddr) (bytes : List Byte) (s : State) :
    (afterWrite a bytes s).pollCount = s.pollCount := rfl

@[simp] theorem afterWrite_fetchBusy (a : DevAddr) (bytes : List Byte) (s : State) :
    (afterWrite a bytes s).fetchBusy = s.fetchBusy := rfl

@[simp] theorem afterWrite_busLog (a : DevAddr) (bytes : List Byte) (s : State) :
    (afterWrite a bytes s).busLog = s.busLog ++ [.write a bytes (nextAck a bytes s)] := rfl

@[simp] theorem afterWrite_responses (a : DevAddr) (bytes : List Byte) (s : State) :
    (afterWrite a bytes s).responses = s.responses := rfl

@[simp] theorem afterWrite_hostCmds (a : DevAddr) (bytes : List Byte) (s : State) :
    (afterWrite a bytes s).hostCmds = s.hostCmds := rfl

@[simp] theorem afterWrite_acks (a : DevAddr) (bytes : List Byte) (s : State) :
    (afterWrite a bytes s).acks = s.acks.tail := rfl

@[simp] theorem afterWrite_reads (a : DevAddr) (bytes : List Byte) (s : State) :
    (afterWrite a bytes s).reads = s.reads := rfl

@[simp] theorem afterWrite_draws (a : DevAddr) (bytes : List Byte) (s : State) :
    (afterWrite a bytes s).draws = s.draws + 1 := rfl

@[simp] theorem afterWrite_params (a : DevAddr) (bytes : List Byte) (s : State) :
    (afterWrite a bytes s).params = s.params := rfl

@[simp] theorem afterRead_st (a : DevAddr) (n : Nat) (s : State) :
    (afterRead a n s).st = s.st := rfl

@[simp] theorem afterRead_activeAddr (a : DevAddr) (n : Nat) (s : State) :
    (afterRead a n s).activeAddr = s.activeAddr := rfl

@[simp] theorem afterRead_activeMux (a : DevAddr) (n : Nat) (s : State) :
    (afterRead a n s).activeMux = s.activeMux := rfl

@[simp] theorem afterRead_rangeCode (a : DevAddr) (n : Nat) (s : State) :
    (afterRead a n s).rangeCode = s.rangeCode := rfl

@[simp] theorem afterRead_rateCode (a : DevAddr) (n : Nat) (s : State) :
    (afterRead a n s).rateCode = s.rateCode := rfl

@[simp] theorem afterRead_busErr (a : DevAddr) (n : Nat) (s : State) :
    (afterRead a n s).busErr = s.busErr := rfl

@[simp] theorem afterRead_pollCount (a : DevAddr) (n : Nat) (s : State) :
    (afterRead a n s).pollCount = s.pollCount := rfl

@[simp] theorem afterRead_fetchBusy (a : DevAddr) (n : Nat) (s : State) :
    (afterRead a n s).fetchBusy = s.fetchBusy := rfl

@[simp] theorem afterRead_busLog (a : DevAddr) (n : Nat) (s : State) :
    (afterRead a n s).busLog = s.busLog ++ [.read a n (nextRead a n s)] := rfl

@[simp] theorem afterRead_responses (a : DevAddr) (n : Nat) (s : State) :
    (afterRead a n s).responses = s.responses := rfl

@[simp] theorem afterRead_hostCmds (a : DevAddr) (n : Nat) (s : State) :
    (afterRead a n s).hostCmds = s.hostCmds := rfl

@[simp] theorem afterRead_acks (a : DevAddr) (n : Nat) (s : State) :
    (afterRead a n s).acks = s.acks := rfl

@[simp] theorem afterRead_reads (a : DevAddr) (n : Nat) (s : State) :
    (afterRead a n s).reads = s.reads.tail := rfl

@[simp] theorem afterRead_draws (a : DevAddr) (n : Nat) (s : State) :
    (afterRead a n s).draws = s.draws + 1 := rfl

@[simp] theorem afterRead_params (a : DevAddr) (n : Nat) (s : State) :
    (afterRead a n s).params = s.params := rfl

@[simp] theorem noteFailure_st (fail : Bool) (s : State) :
    (noteFailure fail s).st = s.st := rfl

@[simp] theorem noteFailure_activeAddr (fail : Bool) (s : State) :
    (noteFailure fail s).activeAddr = s.activeAddr := rfl

@[simp] theorem noteFailure_activeMux (fail : Bool) (s : State) :
    (noteFailure fail s).activeMux = s.activeMux := rfl

@[simp] theorem noteFailure_rangeCode (fail : Bool) (s : State) :
    (noteFailure fail s).rangeCode = s.rangeCode := rfl

@[simp] theorem noteFailure_rateCode (fail : Bool) (s : State) :
    (noteFailure fail s).rateCode = s.rateCode := rfl

@[simp] theorem noteFailure_busErr (fail : Bool) (s : State) :
    (noteFailure fail s).busErr = (s.busErr || fail) := rfl

@[simp] theorem noteFailure_pollCount (fail : Bool) (s : State) :
    (noteFailure fail s).pollCount = s.pollCount := rfl

@[simp] theorem noteFailure_fetchBusy (fail : Bool) (s : State) :
    (noteFailure fail s).fetchBusy = s.fetchBusy := rfl

@[simp] theorem noteFailure_busLog (fail : Bool) (s : State) :
    (noteFailure fail s).busLog = s.busLog := rfl

@[simp] theorem noteFailure_responses (fail : Bool) (s : State) :
    (noteFailure fail s).responses = s.responses := rfl

@[simp] theorem noteFailure_hostCmds (fail : Bool) (s : State) :
    (noteFailure fail s).hostCmds = s.hostCmds := rfl

@[simp] theorem noteFailure_acks (fail : Bool) (s : State) :
    (noteFailure fail s).acks = s.acks := rfl

@[simp] theorem noteFailure_reads (fail : Bool) (s : State) :
    (noteFailure fail s).reads = s.reads := rfl

@[simp] theorem noteFailure_draws (fail : Bool) (s : State) :
    (noteFailure fail s).draws = s.draws := rfl

@[simp] theorem noteFailure_params (fail : Bool) (s : State) :
    (noteFailure fail s).params = s.params := rfl

@[simp] theorem startSession_st (addr : DevAddr) (mux : Code3) (s : State) :
    (startSession addr mux s).st = .await := rfl

@[simp] theorem startSession_activeAddr (addr : DevAddr) (mux : Code3) (s : State) :
    (startSession addr mux s).activeAddr = addr := rfl

@[simp] theorem startSession_activeMux (addr : DevAddr) (mux : Code3) (s : State) :
    (startSession addr mux s).activeMux = mux := rfl

@[simp] theorem startSession_rangeCode (addr : DevAddr) (mux : Code3) (s : State) :
    (startSession addr mux s).rangeCode = s.rangeCode := rfl

@[simp] theorem startSession_rateCode (addr : DevAddr) (mux : Code3) (s : State) :
    (startSession addr mux s).rateCode = s.rateCode := rfl

@[simp] theorem startSession_busErr (addr : DevAddr) (mux : Code3) (s : State) :
    (startSession addr mux s).busErr = false := rfl

@[simp] theorem startSession_pollCount (addr : DevAddr) (mux : Code3) (s : State) :
    (startSession addr mux s).pollCount = 0 := rfl

@[simp] theorem startSession_fetchBusy (addr : DevAddr) (mux : Code3) (s : State) :
    (startSession addr mux s).fetchBusy = s.fetchBusy := rfl

@[simp] theorem startSession_busLog (addr : DevAddr) (mux : Code3) (s : State) :
    (startSession addr mux s).busLog = s.busLog := rfl

@[simp] theorem startSession_responses (addr : DevAddr) (mux : Code3) (s : State) :
    (startSession addr mux s).responses = s.responses := rfl

@[simp] theorem startSession_hostCmds (addr : DevAddr) (mux : Code3) (s : State) :
    (startSession addr mux s).hostCmds = s.hostCmds := rfl

@[simp] theorem startSession_acks (addr : DevAddr) (mux : Code3) (s : State) :
    (startSession addr mux s).acks = s.acks := rfl

@[simp] theorem startSession_reads (addr : DevAddr) (mux : Code3) (s : State) :
    (startSession addr mux s).reads = s.reads := rfl

@[simp] theorem startSession_draws (addr : DevAddr) (mux : Code3) (s : State) :
    (startSession addr mux s).draws = s.draws := rfl

@[simp] theorem startSession_params (addr : DevAddr) (mux : Code3) (s : State) :
    (startSession addr mux s).params = s.params := rfl

@[simp] theorem busWrite_state (a : DevAddr) (bytes : List Byte) (s : State) :
    (busWrite a bytes s).1 = afterWrite a bytes s := rfl

@[simp] theorem busWrite_ack (a : DevAddr) (bytes : List Byte) (s : State) :
    (busWrite a bytes s).2 = nextAck a bytes s := rfl

@[simp] theorem writeConfig_state (a : DevAddr) (w : Word16) (s : State) :
    (writeConfig a w s).1 = afterWrite a [configPointer, hiByte w, loByte w] s := rfl

@[simp] theorem writeConfig_ack (a : DevAddr) (w : Word16) (s : State) :
    (writeConfig a w s).2 = nextAck a [configPointer, hiByte w, loByte w] s := rfl

end Sys2Proof.Machine
end

