-- ==== Sys2Proof/Laws/Ops.lean ====
section
/-! SUPPORT. What each shared operation can do, said once. -/

namespace Sys2Proof.Machine

/-- The ack of a write depends on the collaborator's answers only. -/
theorem nextAck_congr {s t : State} (hk : s.acks = t.acks) (hd : s.draws = t.draws) (a : DevAddr)
    (bytes : List Byte) : nextAck a bytes s = nextAck a bytes t := by
  simp [nextAck, hk, hd]

/-- The bytes of a read depend on the collaborator's answers only. -/
theorem nextRead_congr {s t : State} (hr : s.reads = t.reads) (hd : s.draws = t.draws) (a : DevAddr) (n : Nat) :
    nextRead a n s = nextRead a n t := by
  simp [nextRead, hr, hd]

theorem readOverlong_congr {s t : State} (hr : s.reads = t.reads) (n : Nat) :
    readOverlong n s = readOverlong n t := by
  simp [readOverlong, hr]

/-- A read within the contract returns at most the requested count (R53). -/
theorem nextRead_length_le {n : Nat} {s : State} (a : DevAddr) (h : readOverlong n s = false) :
    (nextRead a n s).length ≤ n := by
  unfold nextRead
  unfold readOverlong at h
  split at h
  · rename_i hr
    simp
  · rename_i hr
    simp at h
    simpa using h

/-- A collaborator that keeps its contract gives no overlong answer. -/
theorem readOverlong_of_contract {s : State} (h : ∀ bytes ∈ s.reads, bytes.length ≤ 2) :
    readOverlong 2 s = false := by
  unfold readOverlong
  split
  · rfl
  · rename_i b bs hr
    have := h b (by simp [hr])
    simpa using this

/-- A register read is refused exactly on an overlong answer, and else answers with the events of R54. -/
theorem readRegister_eq (p : Byte) (s : State) :
    readRegister p s =
      if readOverlong 2 s then .error .overlongReadAnswer else .ok (afterRegister p s, registerAnswer p s) := by
  have h : readOverlong 2 (afterWrite s.activeAddr [p] s) = readOverlong 2 s := readOverlong_congr rfl 2
  unfold readRegister read16 busRead selectPointer
  simp only [busWrite_state, busWrite_ack, h]
  cases readOverlong 2 s <;> rfl

theorem registerAnswer_bytes_le {s : State} (p : Byte) (h : readOverlong 2 s = false) :
    (registerAnswer p s).bytes.length ≤ 2 :=
  nextRead_length_le _ ((readOverlong_congr (t := s) rfl 2).trans h)

@[simp] theorem afterRegister_st (p : Byte) (s : State) : (afterRegister p s).st = s.st := rfl

@[simp] theorem afterRegister_activeAddr (p : Byte) (s : State) : (afterRegister p s).activeAddr = s.activeAddr := rfl

@[simp] theorem afterRegister_activeMux (p : Byte) (s : State) : (afterRegister p s).activeMux = s.activeMux := rfl

@[simp] theorem afterRegister_rangeCode (p : Byte) (s : State) : (afterRegister p s).rangeCode = s.rangeCode := rfl

@[simp] theorem afterRegister_rateCode (p : Byte) (s : State) : (afterRegister p s).rateCode = s.rateCode := rfl

@[simp] theorem afterRegister_busErr (p : Byte) (s : State) : (afterRegister p s).busErr = s.busErr := rfl

@[simp] theorem afterRegister_pollCount (p : Byte) (s : State) : (afterRegister p s).pollCount = s.pollCount := rfl

@[simp] theorem afterRegister_fetchBusy (p : Byte) (s : State) : (afterRegister p s).fetchBusy = s.fetchBusy := rfl

@[simp] theorem afterRegister_responses (p : Byte) (s : State) : (afterRegister p s).responses = s.responses := rfl

@[simp] theorem afterRegister_hostCmds (p : Byte) (s : State) : (afterRegister p s).hostCmds = s.hostCmds := rfl

@[simp] theorem afterRegister_params (p : Byte) (s : State) : (afterRegister p s).params = s.params := rfl

@[simp] theorem afterRegister_reads (p : Byte) (s : State) : (afterRegister p s).reads = s.reads.tail := rfl

@[simp] theorem afterRegister_acks (p : Byte) (s : State) : (afterRegister p s).acks = s.acks.tail := rfl

@[simp] theorem afterRegister_draws (p : Byte) (s : State) : (afterRegister p s).draws = s.draws + 2 := rfl

/-- The two events of a register read, in order (R54, R61). -/
@[simp] theorem afterRegister_busLog (p : Byte) (s : State) :
    (afterRegister p s).busLog = s.busLog ++
      [.write s.activeAddr [p] (registerAnswer p s).ack, .read s.activeAddr 2 (registerAnswer p s).bytes] := by
  simp [afterRegister, registerAnswer]

end Sys2Proof.Machine
end

