-- ==== Sys2Proof/Laws/Conversion.lean ====
section
/-! SUPPORT. What a poll step, a POLL and a FETCH iteration can do, said once (42_conversion.md R125 to R131). -/

namespace Sys2Proof.Machine

/-- The state a poll in AWAIT leaves (R125). -/
def awaitPolled (s : State) : State :=
  pollAdvance (pollDone (registerAnswer configPointer s).bytes)
    (noteFailure (accessFailed (registerAnswer configPointer s)) (afterRegister configPointer s))

theorem pollAwait_eq (s : State) :
    pollAwait s =
      if readOverlong 2 s then .error .overlongReadAnswer
      else .ok (awaitPolled s,
        ⟨accessFailed (registerAnswer configPointer s), pollData (registerAnswer configPointer s).bytes⟩) := by
  unfold pollAwait awaitPolled
  rw [readRegister_eq]
  cases readOverlong 2 s <;> rfl

/-- The state a poll outside AWAIT leaves when it reads the device (R126). -/
def elsewherePolled (s : State) : State :=
  noteFailure (accessFailed (registerAnswer configPointer s)) (afterRegister configPointer s)

theorem pollElsewhere_eq (s : State) :
    pollElsewhere s =
      if s.params.pollReadsWhenNotAwaiting then
        if readOverlong 2 s then .error .overlongReadAnswer
        else .ok (elsewherePolled s, ⟨accessFailed (registerAnswer configPointer s), 0x0000⟩)
      else .ok (s, ⟨false, 0x0000⟩) := by
  unfold pollElsewhere elsewherePolled
  rw [readRegister_eq]
  cases readOverlong 2 s <;> rfl

theorem pollStep_eq (s : State) :
    pollStep s = if s.st = .await then pollAwait s else pollElsewhere s := by
  unfold pollStep
  cases h : s.st <;> simp

/-- A poll step that answers is a poll in AWAIT, a read elsewhere, or nothing at all. -/
theorem pollStep_cases {s t : State} {a : PollAnswer} (h : pollStep s = .ok (t, a)) :
    (s.st = .await ∧ readOverlong 2 s = false ∧ t = awaitPolled s ∧
        a = ⟨accessFailed (registerAnswer configPointer s), pollData (registerAnswer configPointer s).bytes⟩) ∨
      (s.st ≠ .await ∧ s.params.pollReadsWhenNotAwaiting = true ∧ readOverlong 2 s = false ∧
        t = elsewherePolled s ∧ a = ⟨accessFailed (registerAnswer configPointer s), 0x0000⟩) ∨
      (s.st ≠ .await ∧ s.params.pollReadsWhenNotAwaiting = false ∧ t = s ∧ a = ⟨false, 0x0000⟩) := by
  rw [pollStep_eq] at h
  split at h
  · rename_i hs
    rw [pollAwait_eq] at h
    split at h
    · cases h
    · rename_i ho
      injection h with h
      injection h with h1 h2
      exact .inl ⟨hs, by simpa using ho, h1.symm, h2.symm⟩
  · rename_i hs
    rw [pollElsewhere_eq] at h
    split at h
    · rename_i hp
      split at h
      · cases h
      · rename_i ho
        injection h with h
        injection h with h1 h2
        exact .inr (.inl ⟨hs, hp, by simpa using ho, h1.symm, h2.symm⟩)
    · rename_i hp
      injection h with h
      injection h with h1 h2
      exact .inr (.inr ⟨hs, by simpa using hp, h1.symm, h2.symm⟩)

/-- A poll step that reads is refused exactly on an overlong answer. -/
theorem pollStep_refused {s : State} {r : Refusal} (h : pollStep s = .error r) :
    r = .overlongReadAnswer ∧ readOverlong 2 s = true := by
  rw [pollStep_eq] at h
  split at h
  · rw [pollAwait_eq] at h
    split at h
    · rename_i ho
      injection h with h
      exact ⟨h.symm, ho⟩
    · cases h
  · rw [pollElsewhere_eq] at h
    split at h
    · split at h
      · rename_i ho
        injection h with h
        exact ⟨h.symm, ho⟩
      · cases h
    · cases h

/-- The end of a poll in AWAIT as one record update (R125). -/
theorem pollAdvance_eq (done : Bool) (s : State) :
    pollAdvance done s = { s with
      st := if done then .ready
        else if s.params.maxPolls ≠ 0 ∧ s.pollCount + 1 = s.params.maxPolls then .timedOut else s.st
      pollCount := if done = true ∨ s.params.maxPolls = 0 then s.pollCount else s.pollCount + 1 } := by
  unfold pollAdvance
  cases done
  · by_cases h0 : s.params.maxPolls = 0
    · simp [h0]
    · by_cases h1 : s.pollCount + 1 = s.params.maxPolls <;> simp [h0, h1]
  · simp

/-- A poll step answers whenever the read it makes, if it makes one, keeps the contract. -/
theorem pollStep_answers {s : State}
    (h : s.st = .await ∨ s.params.pollReadsWhenNotAwaiting = true → readOverlong 2 s = false) :
    ∃ t a, pollStep s = .ok (t, a) := by
  rw [pollStep_eq]
  by_cases hs : s.st = .await
  · rw [if_pos hs, pollAwait_eq]
    simp [h (.inl hs)]
  · rw [if_neg hs, pollElsewhere_eq]
    by_cases hp : s.params.pollReadsWhenNotAwaiting = true
    · simp [hp, h (.inr hp)]
    · simp [hp]

/-- The state a result read leaves, the session already IDLE (R131). -/
def resultRead (s : State) : State := afterRegister resultPointer { s with st := .idle, fetchBusy := false }

/-- The answers to a result read. -/
def resultAnswer (s : State) : RegisterAnswer := registerAnswer resultPointer { s with st := .idle, fetchBusy := false }

/-- FETCH's READY branch: refused exactly on an overlong answer, and else one of two responses (R131). -/
theorem fetchEnd_ready {s : State} (h : s.st = .ready) :
    fetchEnd s =
      if readOverlong 2 s then .refused .overlongReadAnswer
      else if accessFailed (resultAnswer s) then .next (respond .busError sentinel (noteFailure true (resultRead s)))
      else .next (respond .ok (pollData (resultAnswer s).bytes) (resultRead s)) := by
  unfold fetchEnd fetchResult
  simp only [h]
  have ho : readOverlong 2 { s with st := .idle, fetchBusy := false } = readOverlong 2 s := readOverlong_congr rfl 2
  rw [readRegister_eq, ho]
  cases readOverlong 2 s <;> rfl

/-- What a FETCH iteration that answers does: it polls, and then waits on, fetches, times out or finds nothing (R131). -/
theorem fetchIterate_cases {s t : State} (h : fetchIterate s = .next t) :
    ∃ u a, pollStep s = .ok (u, a) ∧
      ((u.st = .await ∧ t = u) ∨
        (u.st = .ready ∧ readOverlong 2 u = false ∧
          ((accessFailed (resultAnswer u) = true ∧ t = respond .busError sentinel (noteFailure true (resultRead u))) ∨
            (accessFailed (resultAnswer u) = false ∧
              t = respond .ok (pollData (resultAnswer u).bytes) (resultRead u)))) ∨
        (u.st = .timedOut ∧ t = respond .timedOut sentinel { u with fetchBusy := false }) ∨
        (u.st = .idle ∧ t = respond .notReady sentinel { u with fetchBusy := false })) := by
  unfold fetchIterate at h
  split at h
  · cases h
  · rename_i u a hp
    refine ⟨u, a, hp, ?_⟩
    cases hu : u.st
    · simp only [fetchEnd, hu] at h
      injection h with h
      exact .inr (.inr (.inr ⟨rfl, h.symm⟩))
    · simp only [fetchEnd, hu] at h
      injection h with h
      exact .inl ⟨rfl, h.symm⟩
    · rw [fetchEnd_ready hu] at h
      split at h
      · cases h
      · rename_i ho
        split at h
        · rename_i hf
          injection h with h
          exact .inr (.inl ⟨rfl, by simpa using ho, .inl ⟨hf, h.symm⟩⟩)
        · rename_i hf
          injection h with h
          exact .inr (.inl ⟨rfl, by simpa using ho, .inr ⟨by simpa using hf, h.symm⟩⟩)
    · simp only [fetchEnd, hu] at h
      injection h with h
      exact .inr (.inr (.inl ⟨rfl, h.symm⟩))

/-- A POLL that answers is its poll step and one response (R127). -/
theorem execPoll_cases {s t : State} (h : execPoll s = .next t) :
    ∃ u a, pollStep s = .ok (u, a) ∧ t = respond (pollStatus u.st a.fail) a.data u := by
  unfold execPoll at h
  split at h
  · cases h
  · rename_i u a hp
    injection h with h
    exact ⟨u, a, hp, h.symm⟩

end Sys2Proof.Machine
end

