-- ==== Sys2Proof/Laws/Step.lean ====
section
/-! SUPPORT. What a step can be, said once (10_state.md R31). -/

namespace Sys2Proof.Machine

/-- A step that answers iterates a FETCH or accepts the first offered word, legal or not. -/
theorem step_cases {s t : State} (h : step s = .next t) :
    (s.fetchBusy = true ∧ fetchIterate s = .next t) ∨
      (s.fetchBusy = false ∧ ∃ w rest, s.hostCmds = w :: rest ∧
        ((∃ i, decode w = .ok i ∧ exec i { s with hostCmds := rest } = .next t) ∨
          (∃ e, decode w = .error e ∧ execIllegal { s with hostCmds := rest } = .next t))) := by
  unfold step blockStep at h
  split at h
  · rename_i hb
    exact .inl ⟨hb, h⟩
  · rename_i hb
    refine .inr ⟨by simpa using hb, ?_⟩
    unfold acceptNext at h
    split at h
    · cases h
    · rename_i w rest hc
      refine ⟨w, rest, hc, ?_⟩
      unfold runWord at h
      split at h
      · rename_i i hd
        exact .inl ⟨i, hd, h⟩
      · rename_i e hd
        exact .inr ⟨e, hd, h⟩

theorem blockStep_busy {s : State} (h : s.fetchBusy = true) : step s = fetchIterate s := by
  simp [step, blockStep, h]

theorem blockStep_accept {s : State} {w : Byte} {rest : List Byte} (h : s.fetchBusy = false)
    (hc : s.hostCmds = w :: rest) : step s = runWord w { s with hostCmds := rest } := by
  simp [step, blockStep, acceptNext, h, hc]

theorem accepted_of_legal {s : State} {w : Byte} {rest : List Byte} {i : Instr} (h : s.fetchBusy = false)
    (hc : s.hostCmds = w :: rest) (hd : decode w = .ok i) : s.accepted = some i := by
  simp [State.accepted, State.acceptedWord, h, hc, hd]

theorem accepted_of_illegal {s : State} {w : Byte} {rest : List Byte} {e : IllegalWord} (h : s.fetchBusy = false)
    (hc : s.hostCmds = w :: rest) (hd : decode w = .error e) : s.accepted = none := by
  simp [State.accepted, State.acceptedWord, h, hc, hd]

theorem accepted_of_busy {s : State} (h : s.fetchBusy = true) : s.accepted = none := by
  simp [State.accepted, State.acceptedWord, h]

end Sys2Proof.Machine
end

