-- ==== Sys2Proof/Laws/Effects.lean ====
section
/-! SUPPORT. The effect of a poll step and of a FETCH iteration on every field, once, in the terms of Safety.lean; and a run
taken apart step by step. -/

namespace Sys2Proof.Machine

/-- What a poll step from `s` to `t` that answers `a` does to every field (R125, R126). -/
structure PollEffect (s t : State) (a : PollAnswer) : Prop where
  device : t.activeAddr = s.activeAddr ∧ t.activeMux = s.activeMux
  settings : SameSettings s t
  kept : t.fetchBusy = s.fetchBusy ∧ t.responses = s.responses ∧ t.hostCmds = s.hostCmds ∧ t.params = s.params
  reads : t.reads = s.reads ∨ t.reads = s.reads.tail
  elsewhere : s.st ≠ .await → t.st = s.st ∧ t.pollCount = s.pollCount
  events : ∃ es, t.busLog = s.busLog ++ es ∧ a.fail = es.any BusEvent.failed ∧ t.busErr = (s.busErr || a.fail) ∧
    ((s.st ≠ .await ∧ s.params.pollReadsWhenNotAwaiting = false ∧ es = []) ∨
      (readOverlong 2 s = false ∧ ∃ k bytes, bytes.length ≤ 2 ∧
        es = [.write s.activeAddr [0x01] k, .read s.activeAddr 2 bytes] ∧
        (s.st = .await →
          t.st = (if pollDone bytes then .ready
            else if s.params.maxPolls ≠ 0 ∧ s.pollCount + 1 = s.params.maxPolls then .timedOut else .await) ∧
          t.pollCount =
            (if pollDone bytes = true ∨ s.params.maxPolls = 0 then s.pollCount else s.pollCount + 1))))

/-- The two events of a register read fail together as R163 says. -/
theorem accessFailed_eq_any (addr : DevAddr) (p : List Byte) (a : RegisterAnswer) :
    accessFailed a = [BusEvent.write addr p a.ack, .read addr 2 a.bytes].any BusEvent.failed := by
  simp [accessFailed, BusEvent.failed]

theorem pollStep_spec {s t : State} {a : PollAnswer} (h : pollStep s = .ok (t, a)) : PollEffect s t a := by
  rcases pollStep_cases h with ⟨hs, ho, rfl, rfl⟩ | ⟨hs, hp, ho, rfl, rfl⟩ | ⟨hs, hp, rfl, rfl⟩
  · refine ⟨?_, ?_, ?_, ?_, fun h => absurd hs h,
      _, ?_, accessFailed_eq_any s.activeAddr [0x01] _, ?_,
      .inr ⟨ho, _, _, registerAnswer_bytes_le configPointer ho, rfl, fun _ => ⟨?_, ?_⟩⟩⟩
    all_goals simp [awaitPolled, pollAdvance_eq, configPointer, SameSettings, hs]
    all_goals congr
  · refine ⟨?_, ?_, ?_, ?_, fun _ => ⟨rfl, rfl⟩,
      _, ?_, accessFailed_eq_any s.activeAddr [0x01] _, ?_,
      .inr ⟨ho, _, _, registerAnswer_bytes_le configPointer ho, rfl, fun h => absurd h hs⟩⟩
    all_goals simp [elsewherePolled, configPointer, SameSettings]
  · exact ⟨⟨rfl, rfl⟩, ⟨rfl, rfl⟩, ⟨rfl, rfl, rfl, rfl⟩, .inl rfl, fun _ => ⟨rfl, rfl⟩,
      [], by simp, rfl, by simp, .inl ⟨hs, hp, rfl⟩⟩

/-- How a FETCH iteration whose poll step left `u` ends in `t` with a response (R131). -/
inductive FetchEnd (s u t : State) : Prop where
  | timedOut (hu : u.st = .timedOut) (ht : t.st = .timedOut) (log : t.busLog = u.busLog) (err : t.busErr = u.busErr)
      (reads : t.reads = u.reads) (resp : t.responses = s.responses ++ [responseWord t.busErr .timedOut t.st 0xFFFE])
  | nothing (hu : u.st = .idle) (ht : t.st = .idle) (log : t.busLog = u.busLog) (err : t.busErr = u.busErr)
      (reads : t.reads = u.reads) (resp : t.responses = s.responses ++ [responseWord t.busErr .notReady t.st 0xFFFE])
  | sample (b0 b1 : Byte) (hu : u.st = .ready) (ht : t.st = .idle)
      (log : t.busLog = u.busLog ++ [.write s.activeAddr [0x00] true, .read s.activeAddr 2 [b0, b1]])
      (err : t.busErr = u.busErr) (reads : t.reads = u.reads.tail)
      (resp : t.responses = s.responses ++ [responseWord t.busErr .ok t.st (joinBytes b0 b1)])
  | failed (k : Bool) (bytes : List Byte) (hu : u.st = .ready) (ht : t.st = .idle) (le : bytes.length ≤ 2)
      (log : t.busLog = u.busLog ++ [.write s.activeAddr [0x00] k, .read s.activeAddr 2 bytes])
      (bad : (!k || decide (bytes.length < 2)) = true) (err : t.busErr = true) (reads : t.reads = u.reads.tail)
      (resp : t.responses = s.responses ++ [responseWord true .busError t.st 0xFFFE])

/-- What a FETCH iteration does: its poll step, and then it waits on or it ends with a response (R131). -/
theorem fetchIterate_spec {s t : State} (h : fetchIterate s = .next t) :
    ∃ u a, pollStep s = .ok (u, a) ∧ SameSettings s t ∧ t.activeAddr = s.activeAddr ∧ t.activeMux = s.activeMux ∧
      t.hostCmds = s.hostCmds ∧ t.params = s.params ∧ t.pollCount = u.pollCount ∧
      ((u.st = .await ∧ t = u) ∨ (t.fetchBusy = false ∧ FetchEnd s u t)) := by
  obtain ⟨u, a, hp, hc⟩ := fetchIterate_cases h
  have e := pollStep_spec hp
  obtain ⟨_, hr, hh, hq⟩ := e.kept
  refine ⟨u, a, hp, ?_⟩
  rcases hc with ⟨hs, rfl⟩ | ⟨hs, ho, hc⟩ | ⟨hs, rfl⟩ | ⟨hs, rfl⟩
  · exact ⟨e.settings, e.device.1, e.device.2, hh, hq, rfl, .inl ⟨hs, rfl⟩⟩
  · have hl : (resultAnswer u).bytes.length ≤ 2 :=
      registerAnswer_bytes_le _ ((readOverlong_congr (t := u) rfl 2).trans ho)
    have hlog : (resultRead u).busLog = u.busLog ++
        [.write s.activeAddr [0x00] (resultAnswer u).ack, .read s.activeAddr 2 (resultAnswer u).bytes] := by
      simp [resultRead, resultAnswer, resultPointer, e.device.1]
    rcases hc with ⟨hf, rfl⟩ | ⟨hf, rfl⟩
    · refine ⟨e.settings, e.device.1, e.device.2, hh, hq, rfl, .inr ⟨rfl, .failed _ _ hs rfl hl hlog ?_ ?_ rfl ?_⟩⟩
      · exact hf
      · simp
      · simp [resultRead, hr, sentinel]
    · simp [accessFailed] at hf
      match hb : (resultAnswer u).bytes, hl, hf.2 with
      | [b0, b1], _, _ =>
        refine ⟨e.settings, e.device.1, e.device.2, hh, hq, rfl, .inr ⟨rfl, .sample b0 b1 hs rfl ?_ rfl rfl ?_⟩⟩
        · rw [respond_busLog, hlog, hb, hf.1]
        · simp [resultRead, hr, pollData, wordOfBytes]
  · exact ⟨e.settings, e.device.1, e.device.2, hh, hq, rfl,
      .inr ⟨rfl, .timedOut hs hs rfl rfl rfl (by simp [hr, sentinel])⟩⟩
  · exact ⟨e.settings, e.device.1, e.device.2, hh, hq, rfl,
      .inr ⟨rfl, .nothing hs hs rfl rfl rfl (by simp [hr, sentinel])⟩⟩

/-- A FETCH iteration answers whenever its poll step does and the result read, if it makes one, keeps the contract. -/
theorem fetchIterate_answers {s u : State} {a : PollAnswer} (hp : pollStep s = .ok (u, a))
    (h : u.st = .ready → readOverlong 2 u = false) : ∃ t, fetchIterate s = .next t := by
  unfold fetchIterate
  simp only [hp]
  cases hu : u.st
  · exact ⟨_, by simp only [fetchEnd, hu]; rfl⟩
  · exact ⟨_, by simp only [fetchEnd, hu]; rfl⟩
  · rw [fetchEnd_ready hu, h hu]
    by_cases hf : accessFailed (resultAnswer u) = true
    · exact ⟨_, by simp only [hf]; rfl⟩
    · exact ⟨_, by simp only [hf]; rfl⟩
  · exact ⟨_, by simp only [fetchEnd, hu]; rfl⟩

/-- A run of one step more, for any machine. -/
theorem run_step (M : Host.Core) {k : Nat} {s t : M.State} (h : M.step s = .next t) : M.run (k + 1) s = M.run k t := by
  simp [Host.Core.run, h]

/-- A run of the block of one step more. -/
theorem run_succ_of_step {k : Nat} {s t : State} (h : step s = .next t) :
    Sys2Proof.core.run (k + 1) s = Sys2Proof.core.run k t :=
  run_step Sys2Proof.core h

end Sys2Proof.Machine
end

