-- ==== Sys2Proof/Laws/PerInstr.lean ====
section
/-! SUPPORT. The family WordFields: the fields of every command's word are its opcode and its operand (30_encoding.md R81). -/

namespace Sys2Proof.Laws.WordFields

/-- Bits 7:4 of the word are the opcode and bits 3:0 the operand field. -/
def Statement (i : Instr) : Prop := opField (encode i) = opOf i ∧ argField (encode i) = argOf i

/-- The two fields of a word are the two halves it is made of. -/
theorem fields_of_append (o a : BitVec 4) : opField (o ++ a) = o ∧ argField (o ++ a) = a := by
  revert o a
  decide

theorem nop : Statement .nop := fields_of_append _ _

theorem trigger (port : BitVec 4) : Statement (.trigger port) := fields_of_append _ _

theorem setrange (range : Code3) : Statement (.setrange range) := fields_of_append _ _

theorem setrate (rate : Code3) : Statement (.setrate rate) := fields_of_append _ _

theorem poll : Statement .poll := fields_of_append _ _

theorem fetch : Statement .fetch := fields_of_append _ _

end Sys2Proof.Laws.WordFields
end

