-- ==== Sys2Proof/Laws/Response.lean ====
section
/-! SUPPORT. The value of a response word (30_encoding.md R90): its four fields side by side. -/

namespace Sys2Proof.Machine

theorem responseWord_toNat (err : Bool) (status : Status) (st : SessionState) (data : Word16) :
    (responseWord err status st data).toNat =
      err.toNat * 2 ^ 21 + (statusCode status).toNat * 2 ^ 18 + (stateCode st).toNat * 2 ^ 16 + data.toNat := by
  show BitVec.toNat (BitVec.ofBool err ++ statusCode status ++ stateCode st ++ data : BitVec (1 + 3 + 2 + 16)) = _
  rw [BitVec.toNat_append, BitVec.toNat_append, BitVec.toNat_append, ← Nat.shiftLeft_add_eq_or_of_lt data.isLt,
    ← Nat.shiftLeft_add_eq_or_of_lt (stateCode st).isLt, ← Nat.shiftLeft_add_eq_or_of_lt (statusCode status).isLt]
  simp only [Nat.shiftLeft_eq, BitVec.toNat_ofBool]
  omega

end Sys2Proof.Machine
end

