-- ==== Sys2Proof/Tests/Slice0.lean ====
section
/-! SUPPORT. Tests against spec/95_test_vectors.md, and for every statement with hypotheses a witness that meets them. -/

open Sys2Proof Sys2Proof.Machine

namespace Sys2Proof.Tests

/-! ### Well-formedness and decoding (30_encoding.md R82, R84; vectors E4) -/

theorem test_wf_refuses_range_six : Instr.wf (.setrange 6) = false := by decide

theorem test_decode_nop : decode 0b00000000 = .ok .nop := by decide
theorem test_decode_trigger : decode 0b00011100 = .ok (.trigger 12) := by decide
theorem test_decode_setrange : decode 0b00100101 = .ok (.setrange 5) := by decide
theorem test_decode_setrate : decode 0b00110111 = .ok (.setrate 7) := by decide
theorem test_decode_poll : decode 0b01000000 = .ok .poll := by decide
theorem test_decode_fetch : decode 0b01010000 = .ok .fetch := by decide

theorem test_decode_operand_of_nop : decode 0x01 = .error .operandNotZero := by decide
theorem test_decode_range_six : decode 0x26 = .error .rangeCodeUnassigned := by decide
theorem test_decode_arg_bit_three : decode 0x38 = .error .argBit3Set := by decide
theorem test_decode_op_six : decode 0x60 = .error .opUnassigned := by decide
theorem test_table_word : decodeTableWord 8 0x15 = some (.trigger 5) := by decide

/-! ### States and views -/

/-- Reset with MAX_POLLS = `n`. -/
def resetWithLimit (n : Nat) : State := State.resetWith { Params.reference with maxPolls := n }

/-- A session at 0x49 in the state `st`, `count` polls made, the collaborator's answers listed. -/
def session (st : SessionState) (limit count : Nat) (acks : List Bool) (reads : List (List Byte)) : State :=
  { resetWithLimit limit with
    st := st, activeAddr := 0x49, activeMux := 5, pollCount := count, acks := acks, reads := reads }

/-- `session` with a FETCH in progress. -/
def fetching (st : SessionState) (limit count : Nat) (acks : List Bool) (reads : List (List Byte)) : State :=
  { session st limit count acks reads with fetchBusy := true }

/-- The next state of an outcome. -/
def nextOf : Host.Outcome State Fault Refusal → Option State
  | .next t => some t
  | .fault _ => none
  | .refused _ => none

/-- One step with the command word `w` offered. -/
def accept (w : Byte) (s : State) : Option State := nextOf (step { s with hostCmds := [w] })

/-! ### Commands (vectors E5 to E9) -/

/-- E5: NOP in TIMEDOUT with `busErr = 1` responds 0x230000. -/
theorem test_nop_reads_state : (accept 0x00 { session .timedOut 2 2 [] [] with busErr := true }).map (·.responses) =
    some [0x230000] := by decide

/-- E5: 0x26 in AWAIT responds ILLEGAL, 0x110000, and `rangeCode` stays 2. -/
theorem test_illegal_word : (accept 0x26 (session .await 0 0 [] [])).map (fun t => (t.responses, t.rangeCode)) =
    some ([0x110000], 2) := by decide

/-- E5: SETRANGE 5 from reset. -/
theorem test_setrange : (accept 0x25 State.reset).map (fun t => (t.responses, t.rangeCode, t.rateCode)) =
    some ([0x000000], 5, 4) := by decide

/-- E5: SETRATE 7 from reset. -/
theorem test_setrate : (accept 0x37 State.reset).map (fun t => (t.responses, t.rangeCode, t.rateCode)) =
    some ([0x000000], 2, 7) := by decide

/-- E6: TRIGGER 3 not acknowledged enters AWAIT and responds 0x2DF583. -/
theorem test_trigger_nack : (accept 0x13 { State.reset with acks := [false] }).map (fun t => (t.responses, t.st, t.busLog)) =
    some ([0x2DF583], .await, [.write 0x48 [0x01, 0xF5, 0x83] false]) := by decide

/-- E6: TRIGGER 8 from TIMEDOUT with `busErr = 1` and `pollCount = 2` clears both. -/
theorem test_trigger_recovers :
    (accept 0x18 { session .timedOut 2 2 [true] [] with busErr := true }).map
      (fun t => (t.responses, t.busErr, t.pollCount, t.activeAddr)) = some ([0x01C583], false, 0, 0x4A) := by decide

/-- E7: the pointer write fails, the bytes are still used: 0x2E8583. -/
theorem test_poll_uses_bytes_after_nack :
    (accept 0x40 (session .await 0 0 [false] [[0x85, 0x83]])).map (fun t => (t.responses, t.st, t.busErr)) =
      some ([0x2E8583], .ready, true) := by decide

/-- E7: a short read at the limit: TIMED_OUT wins over BUS_ERROR, 0x2B0000. -/
theorem test_poll_short_read_times_out :
    (accept 0x40 (session .await 1 0 [true] [[]])).map (fun t => (t.responses, t.st, t.pollCount)) =
      some ([0x2B0000], .timedOut, 1) := by decide

/-- E9: FETCH in AWAIT, poll done, result 0x7FFF: response 0x007FFF in one iteration, four events. -/
theorem test_fetch_iterates_to_sample :
    (nextOf (step (fetching .await 0 0 [true, true] [[0x85, 0x83], [0x7F, 0xFF]]))).map
      (fun t => (t.responses, t.st, t.fetchBusy, t.busLog.length)) = some ([0x007FFF], .idle, false, 4) := by decide

/-- E9: a short result read leaves IDLE and responds 0x2CFFFE. -/
theorem test_fetch_short_result :
    (nextOf (step (fetching .ready 0 0 [true] [[0x12]]))).map (fun t => (t.responses, t.st)) =
      some ([0x2CFFFE], .idle) := by decide

/-- E8: -200 and the sample that equals the sentinel. -/
theorem test_s16 : s16 (joinBytes 0xFF 0x38) = -200 ∧ s16 (joinBytes 0xFF 0xFE) = -2 := by decide

/-- E3: `encode(13, 1, 7)`. -/
theorem test_encoder : encodeConversion 13 1 7 = (0x4B, 5, 0xD3E3) := by decide

/-- S10: 2, 1, 0, 3 bytes available give 1011. -/
theorem test_probe :
    presenceMask (fun a => if a = 0x48 then 2 else if a = 0x49 then 1 else if a = 0x4A then 0 else 3) = 0b1011 := by decide

/-- P1's text assembles to `15 50`. -/
theorem test_assembler_text :
    assembleText "TRIGGER 5 ; 0x15\nFETCH\n".toList = some [0x15, 0x50] := by decide

/-- R95: an operand outside its range is refused; R96: SAMPLE's expansion, operands in hex and decimal. -/
theorem test_assembler_refuses_and_expands :
    assembleText "TRIGGER 16".toList = none ∧
      assembleText " SAMPLE 0xF, 1, 7".toList = some [0x21, 0x37, 0x1F, 0x50] := by decide

/-- A word placed for the next step runs even where a FETCH waits (log entry 11). -/
theorem test_withFetchWord :
    (nextOf (step ((fetching .await 0 0 [] []).withFetchWord 8 0x21))).map (·.rangeCode) = some 1 := by decide

/-! ### Witnesses of hypotheses -/

theorem witness_DecodeEncodeRoundTrip : Instr.wf (.setrange 5) = true ∧ decode 0x25 = .ok (.setrange 5) := by decide

theorem witness_IllegalWordResponse :
    let s := { session .await 0 0 [] [] with hostCmds := [0x26] }
    s.fetchBusy = false ∧ s.st = .await ∧ s.busErr = false ∧ s.hostCmds = [0x26] ∧
      decode 0x26 = .error .rangeCodeUnassigned := by decide

theorem witness_PollStepInAwait :
    let s := session .await 0 0 [true] [[0x80, 0x00]]
    s.st = .await ∧ readOverlong 2 s = false := by decide

theorem witness_PollStepElsewhere_silent :
    let s := session .timedOut 2 2 [] []
    s.st ≠ .await ∧ s.params.pollReadsWhenNotAwaiting = false := by decide

theorem witness_PollStepElsewhere_reads :
    let s := { session .idle 0 0 [true] [[0x85, 0x83]] with
      params := { Params.reference with pollReadsWhenNotAwaiting := true } }
    s.st ≠ .await ∧ s.params.pollReadsWhenNotAwaiting = true ∧ readOverlong 2 s = false := by decide

theorem witness_PollResult_completes :
    let s := session .await 1 0 [true] [[0x05]]
    s.PollReads → readOverlong 2 s = false := by decide

theorem witness_PollResult_two_bytes :
    let s := session .await 0 0 [true] [[0x7F, 0xFF]]
    s.st = .await ∧ s.params.maxPolls = 0 ∧ s.reads = [0x7F, 0xFF] :: [] ∧ s.acks = true :: [] := by decide

theorem witness_PollResult_short :
    let s := session .await 0 0 [true] [[0x85]]
    s.st = .await ∧ s.params.maxPolls = 0 ∧ s.reads = [0x85] :: [] ∧ ([0x85] : List Byte).length < 2 := by decide

/-- Two not-done polls, the second a short read, that reach the limit 3 from the count 1. -/
theorem witness_NotDonePollsUpToLimit :
    let s := { session .await 3 1 [] [[0x7F, 0xFF], [0x85]] with hostCmds := List.replicate 2 0x40 ++ [0x00] }
    s.fetchBusy = false ∧ s.st = .await ∧ 2 ≤ s.reads.length ∧ (∀ bytes ∈ s.reads.take 2, NotDone bytes) ∧
      s.hostCmds = List.replicate 2 0x40 ++ [0x00] ∧ (s.params.maxPolls = 0 ∨ s.pollCount + 2 ≤ s.params.maxPolls) := by
  decide

theorem witness_NotDonePollsUpToLimit_done :
    let s := session .await 3 2 [] [[0x80, 0x00]]
    s.st = .await ∧ s.reads = [0x80, 0x00] :: [] ∧ ([0x80, 0x00] : List Byte).length ≤ 2 ∧
      pollDone [0x80, 0x00] = true := by decide

theorem witness_NotDonePollsUpToLimit_ready :
    (session .ready 0 0 [] []).st = .ready ∧ readOverlong 2 (session .ready 0 0 [] []) = false := by decide

theorem witness_PollParameterMovesOnlyTraffic : readOverlong 2 (session .idle 0 0 [false] [[]]) = false := by decide

theorem witness_FetchAcceptance : (fetching .await 0 0 [] []).fetchBusy = true := by decide

theorem witness_FetchIteration_waits : ∃ t a,
    (fetching .await 0 0 [true] [[0x05, 0x83]]).fetchBusy = true ∧
      pollStep (fetching .await 0 0 [true] [[0x05, 0x83]]) = .ok (t, a) ∧ t.st = .await :=
  ⟨_, _, rfl, rfl, by decide⟩

theorem witness_FetchIteration_times_out : ∃ t a,
    (fetching .await 2 1 [true] [[0x05]]).fetchBusy = true ∧
      pollStep (fetching .await 2 1 [true] [[0x05]]) = .ok (t, a) ∧ t.st = .timedOut :=
  ⟨_, _, rfl, rfl, by decide⟩

theorem witness_FetchIteration_finds_nothing : ∃ t a,
    (fetching .idle 0 0 [] []).fetchBusy = true ∧ pollStep (fetching .idle 0 0 [] []) = .ok (t, a) ∧ t.st = .idle :=
  ⟨_, _, rfl, rfl, by decide⟩

theorem witness_FetchIteration_sample : ∃ t a,
    (fetching .ready 0 0 [true] [[0x0F, 0xA0]]).fetchBusy = true ∧
      pollStep (fetching .ready 0 0 [true] [[0x0F, 0xA0]]) = .ok (t, a) ∧ t.st = .ready ∧ readOverlong 2 t = false ∧
      (registerAnswer 0x00 t).ack = true ∧ (registerAnswer 0x00 t).bytes = [0x0F, 0xA0] :=
  ⟨_, _, rfl, rfl, by decide, by decide, by decide, by decide⟩

theorem witness_FetchIteration_failed : ∃ t a,
    (fetching .await 0 0 [true, false] [[0x85, 0x83], [0x12, 0x34]]).fetchBusy = true ∧
      pollStep (fetching .await 0 0 [true, false] [[0x85, 0x83], [0x12, 0x34]]) = .ok (t, a) ∧ t.st = .ready ∧
      readOverlong 2 t = false ∧ ((registerAnswer 0x00 t).ack = false ∨ (registerAnswer 0x00 t).bytes.length ≠ 2) :=
  ⟨_, _, rfl, rfl, by decide, by decide, by decide⟩

theorem witness_FetchReturnsTheResultBytes :
    let s := fetching .ready 0 0 [true] [[0x0F, 0xA0]]
    s.fetchBusy = true ∧ s.st = .ready ∧ s.params.pollReadsWhenNotAwaiting = false ∧ s.reads = [0x0F, 0xA0] :: [] ∧
      s.acks = true :: [] := by decide

/-- From IDLE; also the witness of FetchWithNothingReady's first clause. -/
theorem witness_FetchReturnsTheResultBytes_idle :
    let s := fetching .idle 0 0 [] []
    s.fetchBusy = true ∧ s.st = .idle ∧ (s.PollReads → readOverlong 2 s = false) := by decide

theorem witness_FetchWithNothingReady :
    let s := fetching .timedOut 2 2 [] []
    s.fetchBusy = true ∧ s.st = .timedOut ∧ (s.PollReads → readOverlong 2 s = false) := by decide

theorem witness_FetchSampleWasRead : ∃ t r,
    (fetching .ready 0 0 [true] [[0xFF, 0xFE]]).fetchBusy = true ∧
      step (fetching .ready 0 0 [true] [[0xFF, 0xFE]]) = .next t ∧
      t.responses = (fetching .ready 0 0 [true] [[0xFF, 0xFE]]).responses ++ [r] ∧ respStatus r = 0 :=
  ⟨_, 0x00FFFE, rfl, rfl, by decide, by decide⟩

theorem witness_FetchWaitsWithoutLimit :
    let s := fetching .await 0 0 [] [[0x05, 0x83], []]
    s.fetchBusy = true ∧ s.st = .await ∧ s.params.maxPolls = 0 ∧ 2 ≤ s.reads.length ∧
      (∀ bytes ∈ s.reads.take 2, NotDone bytes) := by decide

theorem witness_FetchCompletesWithinLimit :
    let s := fetching .await 4 3 [] [[0x05, 0x83]]
    s.fetchBusy = true ∧ s.st = .await ∧ s.pollCount < s.params.maxPolls ∧ s.ContractKept := by decide

theorem witness_NoHangWithLimit :
    (fetching .await 4 3 [] []).Inv ∧ (fetching .await 4 3 [] []).ContractKept ∧
      (fetching .await 4 3 [] []).params.maxPolls ≠ 0 :=
  ⟨⟨by decide, by decide, by decide, by decide, by decide, by decide⟩, by decide, by decide⟩

theorem witness_StepRunsTheAcceptedCommand :
    let s := { State.reset with hostCmds := [0x1F, 0x50] }
    s.fetchBusy = false ∧ s.hostCmds = 0x1F :: [0x50] ∧ decode 0x1F = .ok (.trigger 15) := by decide

theorem witness_StepRunsTheAcceptedCommand_illegal :
    let s := { State.reset with hostCmds := [0xFF] }
    s.fetchBusy = false ∧ s.hostCmds = 0xFF :: [] ∧ decode 0xFF = .error .opUnassigned := by decide

/-- At reset no command is offered; the witness of StepsRefusedOnlyByName's first case. -/
theorem witness_StepRunsTheAcceptedCommand_none :
    State.reset.fetchBusy = false ∧ State.reset.hostCmds = [] := by decide

theorem witness_StepsRefusedOnlyByName_ended : step State.reset = .refused .noCommandOffered := rfl

theorem witness_StepsRefusedOnlyByName_overlong :
    step (fetching .await 0 0 [true, true] [[0x85, 0x83], [1, 2, 3]]) = .refused .overlongReadAnswer := rfl

theorem witness_StepExistsUntilRunEnds :
    (fetching .await 0 0 [] [[], [0x05], [0x85, 0x83]]).ContractKept ∧ State.reset.ContractKept := by decide

/-- The premise "a step answers" of OneResponsePerCommand, StatusesAsProduced, SessionTransitions, BusErrSticky,
PollCountMoves, SettingsPersist, DeviceSelectedByTriggerOnly and BusLogOnlyAppended, for an iteration, and of
FetchIterationFrame. -/
theorem witness_step_iterates : ∃ t, (fetching .await 2 1 [false] [[0x05]]).fetchBusy = true ∧
    step (fetching .await 2 1 [false] [[0x05]]) = .next t ∧ t.st = .timedOut ∧ t.pollCount = 2 :=
  ⟨_, rfl, rfl, by decide, by decide⟩

/-- The same premise for a TRIGGER that is accepted. -/
theorem witness_step_accepts_trigger : ∃ t,
    step { session .ready 0 0 [false] [] with hostCmds := [0x1F] } = .next t ∧
      { session .ready 0 0 [false] [] with hostCmds := [0x1F] }.accepted = some (.trigger 15) :=
  ⟨_, rfl, by decide⟩

/-- The same premise for a POLL that is accepted. -/
theorem witness_step_accepts_poll : ∃ t,
    step { session .await 0 0 [true] [[0x80, 0x00]] with hostCmds := [0x40] } = .next t ∧
      { session .await 0 0 [true] [[0x80, 0x00]] with hostCmds := [0x40] }.accepted = some .poll :=
  ⟨_, rfl, by decide⟩

/-- The same premise for an illegal word. -/
theorem witness_step_accepts_illegal : ∃ t, step { State.reset with hostCmds := [0x27] } = .next t ∧
    { State.reset with hostCmds := [0x27] }.accepted = none :=
  ⟨_, rfl, by decide⟩

/-- The same premise for the commands that make no bus access. -/
theorem witness_step_accepts_quiet :
    (∃ t, step { State.reset with hostCmds := [0x00] } = .next t) ∧
      { State.reset with hostCmds := [0x00] }.accepted = some .nop ∧
      { State.reset with hostCmds := [0x25] }.accepted = some (.setrange 5) ∧
      { State.reset with hostCmds := [0x37] }.accepted = some (.setrate 7) ∧
      { State.reset with hostCmds := [0x50] }.accepted = some .fetch :=
  ⟨⟨_, rfl⟩, by decide, by decide, by decide, by decide⟩

/-- A POLL with a failed access and a POLL at the limit, for StatusPriority. -/
theorem witness_StatusPriority : ∃ t r,
    step { session .await 1 0 [true] [[]] with hostCmds := [0x40] } = .next t ∧
      t.responses = { session .await 1 0 [true] [[]] with hostCmds := [0x40] }.responses ++ [r] ∧
      (newEvents { session .await 1 0 [true] [[]] with hostCmds := [0x40] } t).any BusEvent.failed = true :=
  ⟨_, 0x2B0000, rfl, by decide, by decide⟩

/-- The clauses of PollCountMoves where they meet: a not-done poll below the limit and at it, a done poll at the last count,
a poll with MAX_POLLS = 0, and a poll outside AWAIT. -/
theorem witness_PollCountMoves :
    let view := fun (s : State) (bytes : List Byte) => (accept 0x40 s).map fun t => (t.pollCount, t.st, pollDone bytes)
    view (session .await 3 1 [true] [[0x05, 0x83]]) [0x05, 0x83] = some (2, .await, false) ∧
      view (session .await 3 2 [true] [[0x05, 0x83]]) [0x05, 0x83] = some (3, .timedOut, false) ∧
      view (session .await 3 2 [true] [[0x85, 0x83]]) [0x85, 0x83] = some (2, .ready, true) ∧
      view (session .await 0 0 [true] [[0x05]]) [0x05] = some (0, .await, false) ∧
      view (session .ready 3 2 [] []) [] = some (2, .ready, false) := by decide

theorem witness_CommandFrames :
    (∃ t, exec .nop State.reset = .next t) ∧ (∃ t, exec (.trigger 15) State.reset = .next t) ∧
      (∃ t, exec (.setrange 5) State.reset = .next t) ∧ (∃ t, exec (.setrate 0) State.reset = .next t) ∧
      (∃ t, exec .poll (session .await 1 0 [true] [[]]) = .next t) ∧ (∃ t, exec .fetch State.reset = .next t) :=
  ⟨⟨_, rfl⟩, ⟨_, rfl⟩, ⟨_, rfl⟩, ⟨_, rfl⟩, ⟨_, rfl⟩, ⟨_, rfl⟩⟩

/-- A step into TIMEDOUT from a legal state with an empty log, for StepKeepsRegistersLegal and StepKeepsLogFramed. -/
theorem witness_StepKeepsRegistersLegal : ∃ t, (fetching .await 2 1 [true] [[0x05]]).Inv ∧
    (fetching .await 2 1 [true] [[0x05]]).LogFramed ∧ step (fetching .await 2 1 [true] [[0x05]]) = .next t :=
  ⟨_, ⟨by decide, by decide, by decide, by decide, by decide, by decide⟩, fun _ h => absurd h (List.not_mem_nil), rfl⟩

theorem witness_ResetRegistersLegal : Params.Legal { Params.reference with resetRange := 5 } := by decide

theorem witness_BusLogOnlyAppended_read : ∃ t, busRead 0x49 2 (session .await 0 0 [] [[0x85]]) = .ok (t, [0x85]) :=
  ⟨_, rfl⟩

theorem witness_NoTimeoutWithoutLimit : ∃ t, (fetching .await 0 0 [true] [[0x05]]).params.maxPolls = 0 ∧
    (fetching .await 0 0 [true] [[0x05]]).st ≠ .timedOut ∧ step (fetching .await 0 0 [true] [[0x05]]) = .next t :=
  ⟨_, by decide, by decide, rfl⟩

end Sys2Proof.Tests
end

/-! PROOF. The two kinds of step (10_state.md R31), and what a step does with the three fields no step reads to decide
anything: the sticky flag (R26), the bus log (R29) and the responses. -/

namespace Sys2Proof.Machine

/-! ### The rule a step runs -/

/-- A step that accepts a legal word runs its command on the state without that word. -/
theorem step_of_legal {s : State} {w : Byte} {rest : List Byte} {i : Instr} (h : s.fetchBusy = false)
    (hc : s.hostCmds = w :: rest) (hd : decode w = .ok i) : step s = exec i { s with hostCmds := rest } := by
  simp [blockStep_accept h hc, runWord, hd]

/-- A step that accepts an illegal word answers it by the rule of R161. -/
theorem step_of_illegal {s : State} {w : Byte} {rest : List Byte} {e : IllegalWord} (h : s.fetchBusy = false)
    (hc : s.hostCmds = w :: rest) (hd : decode w = .error e) : step s = execIllegal { s with hostCmds := rest } := by
  simp [blockStep_accept h hc, runWord, hd]

theorem step_of_ended {s : State} (h : s.Ended) : step s = .refused .noCommandOffered := by
  simp [step, blockStep, acceptNext, h.1, h.2]

/-- Settles O34: each clause is the law of one kind of step. -/
theorem stepRunsTheAcceptedCommand : Obligations.StepRunsTheAcceptedCommand := by
  refine ⟨fun _ => blockStep_busy, fun _ _ _ _ => step_of_legal, fun _ _ _ _ => step_of_illegal,
    fun s h hc t ht => ?_⟩
  rw [step_of_ended ⟨h, hc⟩] at ht
  cases ht

/-! ### A state with another trace

The flag, the log and the responses are the trace of a run. An operation runs on a state with another trace as it does
on the state itself, and only adds to the trace. -/

/-- `s` with the flag `err`, the bus log `log` and the responses `rs`. -/
def State.withTrace (err : Bool) (log : List BusEvent) (rs : List RespWord) (s : State) : State :=
  { s with busErr := err, busLog := log, responses := rs }

theorem State.withTrace_self (s : State) : s.withTrace s.busErr s.busLog s.responses = s := rfl

/-- The state after a response, if there is one. -/
def replied (answer : Option (Status × Word16)) (s : State) : State :=
  match answer with
  | none => s
  | some (status, data) => respond status data s

@[simp] theorem replied_busErr (answer : Option (Status × Word16)) (s : State) :
    (replied answer s).busErr = s.busErr := by
  cases answer <;> rfl

@[simp] theorem replied_busLog (answer : Option (Status × Word16)) (s : State) :
    (replied answer s).busLog = s.busLog := by
  cases answer <;> rfl

section
variable (err : Bool) (log : List BusEvent) (rs : List RespWord) (s : State)

/-- The events of a register read (R54). -/
def registerEvents (p : Byte) (s : State) : List BusEvent :=
  [.write s.activeAddr [p] (registerAnswer p s).ack, .read s.activeAddr 2 (registerAnswer p s).bytes]

theorem registerEvents_failed (p : Byte) :
    (registerEvents p s).any BusEvent.failed = accessFailed (registerAnswer p s) :=
  (accessFailed_eq_any _ _ _).symm

theorem afterRegister_withTrace (p : Byte) :
    afterRegister p (s.withTrace err log rs) = (afterRegister p s).withTrace err (log ++ registerEvents p s) rs := by
  have h : log ++ registerEvents p s = log ++ [.write s.activeAddr [p] (registerAnswer p s).ack] ++
      [.read s.activeAddr 2 (registerAnswer p s).bytes] := by
    simp [registerEvents]
  rw [h]
  rfl

theorem pollAdvance_withTrace (done : Bool) :
    pollAdvance done (s.withTrace err log rs) = (pollAdvance done s).withTrace err log rs := by
  simp only [pollAdvance_eq]
  rfl

theorem awaitPolled_withTrace :
    awaitPolled (s.withTrace err log rs) =
      (awaitPolled s).withTrace (err || (registerEvents configPointer s).any BusEvent.failed)
        (log ++ registerEvents configPointer s) rs := by
  rw [registerEvents_failed, awaitPolled, afterRegister_withTrace]
  exact pollAdvance_withTrace _ _ _ (noteFailure _ (afterRegister configPointer s)) _

theorem elsewherePolled_withTrace :
    elsewherePolled (s.withTrace err log rs) =
      (elsewherePolled s).withTrace (err || (registerEvents configPointer s).any BusEvent.failed)
        (log ++ registerEvents configPointer s) rs := by
  rw [registerEvents_failed, elsewherePolled, afterRegister_withTrace]
  rfl

theorem resultRead_withTrace :
    resultRead (s.withTrace err log rs) =
      (resultRead s).withTrace err
        (log ++ registerEvents resultPointer { s with st := .idle, fetchBusy := false }) rs :=
  afterRegister_withTrace err log rs { s with st := .idle, fetchBusy := false } resultPointer

end

/-- A poll step on another trace: the same answer, and the events of its read, if it reads, behind the log. -/
theorem pollStep_withTrace (s : State) : ∃ es, ∀ err log rs,
    pollStep (s.withTrace err log rs) =
      (pollStep s).map fun r => (r.1.withTrace (err || es.any BusEvent.failed) (log ++ es) rs, r.2) := by
  have ho : ∀ err log rs, readOverlong 2 (s.withTrace err log rs) = readOverlong 2 s := fun _ _ _ => rfl
  by_cases hs : s.st = .await
  · refine ⟨registerEvents configPointer s, fun err log rs => ?_⟩
    have hw : (s.withTrace err log rs).st = .await := hs
    rw [pollStep_eq, pollStep_eq, if_pos hs, if_pos hw, pollAwait_eq, pollAwait_eq, awaitPolled_withTrace, ho]
    cases readOverlong 2 s <;> rfl
  · have he : ∀ err log rs, pollStep (s.withTrace err log rs) = pollElsewhere (s.withTrace err log rs) :=
      fun err log rs => (pollStep_eq _).trans (if_neg hs)
    have hp : ∀ err log rs, (s.withTrace err log rs).params = s.params := fun _ _ _ => rfl
    refine ⟨if s.params.pollReadsWhenNotAwaiting then registerEvents configPointer s else [], fun err log rs => ?_⟩
    rw [he, pollStep_eq, if_neg hs, pollElsewhere_eq, pollElsewhere_eq, elsewherePolled_withTrace, ho, hp]
    cases s.params.pollReadsWhenNotAwaiting
    · simp [Except.map]
    · cases readOverlong 2 s <;> rfl

/-! ### What a meaning adds to the trace -/

/-- On any trace, `m` does to `s` what it does on the trace of `s`: the flag, or what `kept` leaves of it, is joined
with the failures of the new events, the new events go behind the log, and at most one response is given. -/
def AddsToTrace (m : State → Host.Outcome State Fault Refusal) (kept : Bool → Bool) (s : State) : Prop :=
  ∃ es answer, ∀ err log rs, m (s.withTrace err log rs) =
    outcomeMap (fun t => replied answer (t.withTrace (kept err || es.any BusEvent.failed) (log ++ es) rs)) (m s)

/-- A meaning that runs as another one does, on its own trace and on every other, adds what the other adds. -/
theorem AddsToTrace.congr {m m' : State → Host.Outcome State Fault Refusal} {kept : Bool → Bool} {s s' : State}
    (h : AddsToTrace m kept s) (hs : m' s' = m s)
    (hm : ∀ err log rs, m' (s'.withTrace err log rs) = m (s.withTrace err log rs)) : AddsToTrace m' kept s' := by
  obtain ⟨es, answer, hes⟩ := h
  exact ⟨es, answer, fun err log rs => by rw [hm, hs, hes]⟩

/-- A meaning that makes no bus access and leaves the flag alone adds a response at most. -/
theorem addsToTrace_of_quiet {m : State → Host.Outcome State Fault Refusal} {s : State}
    (answer : Option (Status × Word16))
    (h : ∀ err log rs, m (s.withTrace err log rs) =
      outcomeMap (fun t => replied answer (t.withTrace err log rs)) (m s)) : AddsToTrace m id s :=
  ⟨[], answer, fun err log rs => by simp [h]⟩

theorem execIllegal_addsToTrace (s : State) : AddsToTrace execIllegal id s :=
  addsToTrace_of_quiet (some (.illegal, 0x0000)) fun _ _ _ => rfl

/-- The ack of TRIGGER's configuration write (R120). -/
def triggerAck (p : BitVec 4) (s : State) : Bool :=
  let e := encodeConversion p s.rangeCode s.rateCode
  (writeConfig e.1 e.2.2 s).2

/-- The one event of a TRIGGER (R120). -/
def triggerEvent (p : BitVec 4) (s : State) : BusEvent :=
  let e := encodeConversion p s.rangeCode s.rateCode
  .write e.1 [configPointer, hiByte e.2.2, loByte e.2.2] (triggerAck p s)

theorem execTrigger_addsToTrace (p : BitVec 4) (s : State) : AddsToTrace (execTrigger p) (fun _ => false) s := by
  have hf : [triggerEvent p s].any BusEvent.failed = !triggerAck p s := Bool.or_false _
  refine ⟨[triggerEvent p s],
    some (triggerStatus (triggerAck p s), (encodeConversion p s.rangeCode s.rateCode).2.2), fun err log rs => ?_⟩
  rw [hf]
  rfl

theorem execPoll_addsToTrace (s : State) : AddsToTrace execPoll id s := by
  obtain ⟨es, hes⟩ := pollStep_withTrace s
  unfold AddsToTrace execPoll
  simp only [hes]
  match pollStep s with
  | .error r => exact ⟨es, none, fun _ _ _ => rfl⟩
  | .ok (u, a) => exact ⟨es, some (pollStatus u.st a.fail, a.data), fun _ _ _ => rfl⟩

/-- FETCH's READY branch: the result read, and a response by whether the read failed (R131). -/
theorem fetchEnd_addsToTrace_of_ready {s : State} (hs : s.st = .ready) : AddsToTrace fetchEnd id s := by
  have hf := registerEvents_failed { s with st := .idle, fetchBusy := false } resultPointer
  change _ = accessFailed (resultAnswer s) at hf
  refine ⟨registerEvents resultPointer { s with st := .idle, fetchBusy := false },
    some (if accessFailed (resultAnswer s) then (.busError, sentinel) else (.ok, pollData (resultAnswer s).bytes)),
    fun err log rs => ?_⟩
  have hw : (s.withTrace err log rs).st = .ready := hs
  have ho : readOverlong 2 (s.withTrace err log rs) = readOverlong 2 s := rfl
  have ha : resultAnswer (s.withTrace err log rs) = resultAnswer s := rfl
  rw [fetchEnd_ready hs, fetchEnd_ready hw, resultRead_withTrace, hf, ho, ha]
  cases readOverlong 2 s <;> cases accessFailed (resultAnswer s)
  · simp only [id, Bool.or_false]
    rfl
  all_goals rfl

theorem fetchEnd_addsToTrace (s : State) : AddsToTrace fetchEnd id s := by
  have hw : ∀ err log rs, (s.withTrace err log rs).st = s.st := fun _ _ _ => rfl
  cases hs : s.st
  case idle =>
    exact addsToTrace_of_quiet (some (.notReady, sentinel)) fun _ _ _ => by
      simp only [fetchEnd, hw, hs]
      rfl
  case await =>
    exact addsToTrace_of_quiet none fun _ _ _ => by
      simp only [fetchEnd, hw, hs]
      rfl
  case ready => exact fetchEnd_addsToTrace_of_ready hs
  case timedOut =>
    exact addsToTrace_of_quiet (some (.timedOut, sentinel)) fun _ _ _ => by
      simp only [fetchEnd, hw, hs]
      rfl

theorem fetchIterate_addsToTrace (s : State) : AddsToTrace fetchIterate id s := by
  obtain ⟨es, hes⟩ := pollStep_withTrace s
  unfold AddsToTrace fetchIterate
  simp only [hes]
  match pollStep s with
  | .error r => exact ⟨es, none, fun _ _ _ => rfl⟩
  | .ok (u, a) =>
    obtain ⟨es', answer, h⟩ := fetchEnd_addsToTrace u
    refine ⟨es ++ es', answer, fun err log rs => ?_⟩
    simpa [Except.map, Bool.or_assoc] using h (err || es.any BusEvent.failed) (log ++ es) rs

/-- What a step leaves of the flag before its own accesses: TRIGGER clears it (R26). -/
def keptFlag (c : Option Instr) (err : Bool) : Bool :=
  match c with
  | some (.trigger _) => false
  | _ => err

theorem exec_addsToTrace (i : Instr) (s : State) : AddsToTrace (exec i) (keptFlag (some i)) s := by
  cases i with
  | nop => exact addsToTrace_of_quiet (some (.ok, 0x0000)) fun _ _ _ => rfl
  | trigger p => exact execTrigger_addsToTrace p s
  | setrange r => exact addsToTrace_of_quiet (some (.ok, 0x0000)) fun _ _ _ => rfl
  | setrate t => exact addsToTrace_of_quiet (some (.ok, 0x0000)) fun _ _ _ => rfl
  | poll => exact execPoll_addsToTrace s
  | fetch => exact addsToTrace_of_quiet none fun _ _ _ => rfl

/-- The law of every step: its trace is not read, and it is added to (R26, R29). -/
theorem step_addsToTrace (s : State) : AddsToTrace step (keptFlag s.accepted) s := by
  by_cases hb : s.fetchBusy = true
  · rw [accepted_of_busy hb]
    exact (fetchIterate_addsToTrace s).congr (blockStep_busy hb)
      fun err log rs => blockStep_busy (s := s.withTrace err log rs) hb
  rw [Bool.not_eq_true] at hb
  match hc : s.hostCmds with
  | [] =>
    have hr : ∀ err log rs, step (s.withTrace err log rs) = .refused .noCommandOffered :=
      fun _ _ _ => step_of_ended ⟨hb, hc⟩
    exact ⟨[], none, fun err log rs => by rw [hr, step_of_ended ⟨hb, hc⟩]; rfl⟩
  | w :: rest =>
    match hd : decode w with
    | .ok i =>
      rw [accepted_of_legal hb hc hd]
      exact (exec_addsToTrace i { s with hostCmds := rest }).congr (step_of_legal hb hc hd)
        fun err log rs => step_of_legal (s := s.withTrace err log rs) hb hc hd
    | .error e =>
      rw [accepted_of_illegal hb hc hd]
      exact (execIllegal_addsToTrace { s with hostCmds := rest }).congr (step_of_illegal hb hc hd)
        fun err log rs => step_of_illegal (s := s.withTrace err log rs) hb hc hd

/-- The trace a step leaves: what it keeps of the flag joined with the failures of its events, and the log with these
events behind it (R26, R29). -/
theorem step_trace {s t : State} (h : step s = .next t) : ∃ es,
    t.busLog = s.busLog ++ es ∧ t.busErr = (keptFlag s.accepted s.busErr || es.any BusEvent.failed) := by
  obtain ⟨es, answer, hes⟩ := step_addsToTrace s
  have ht := hes s.busErr s.busLog s.responses
  rw [State.withTrace_self, h] at ht
  injection ht with ht
  exact ⟨es, ht ▸ replied_busLog _ _, ht ▸ replied_busErr _ _⟩

theorem outcomeMap_outcomeMap (f g : State → State) (o : Host.Outcome State Fault Refusal) :
    outcomeMap f (outcomeMap g o) = outcomeMap (fun t => f (g t)) o := by
  cases o <;> rfl

/-! ### The sticky flag -/

/-- `s` with the flag and bit 21 of its responses cleared: what is left when the flag is not looked at. -/
def flagBlind (s : State) : State :=
  { s with busErr := false, responses := s.responses.map fun r => r &&& 0x1FFFFF }

/-- Masking bit 21 of a response word hides the flag it was given with (R90). -/
theorem responseWord_masked (err : Bool) (status : Status) (st : SessionState) (data : Word16) :
    responseWord err status st data &&& 0x1FFFFF = responseWord false status st data := by
  have hm : (0x1FFFFF : RespWord).toNat = 2 ^ 21 - 1 := rfl
  apply BitVec.eq_of_toNat_eq
  rw [BitVec.toNat_and, hm, Nat.and_two_pow_sub_one_eq_mod, responseWord_toNat, responseWord_toNat, Bool.toNat_false]
  have := (statusCode status).isLt
  have := (stateCode st).isLt
  have := data.isLt
  omega

theorem flagBlind_replied (answer : Option (Status × Word16)) (err err' : Bool) (log : List BusEvent)
    (rs : List RespWord) (s : State) :
    flagBlind (replied answer (s.withTrace err log rs)) = flagBlind (replied answer (s.withTrace err' log rs)) := by
  match answer with
  | none => rfl
  | some (status, data) =>
    simp only [flagBlind, replied, respond, State.withTrace, List.map_append, List.map_cons, List.map_nil,
      responseWord_masked]

/-- A step does not read the flag but to show it in its response (R26). -/
theorem step_flagBlind (s : State) (err : Bool) :
    outcomeMap flagBlind (step { s with busErr := err }) = outcomeMap flagBlind (step s) := by
  obtain ⟨es, answer, hes⟩ := step_addsToTrace s
  have key : ∀ err, outcomeMap flagBlind (step (s.withTrace err s.busLog s.responses)) = outcomeMap
      (fun t => flagBlind (replied answer (t.withTrace false (s.busLog ++ es) s.responses))) (step s) := fun err => by
    rw [hes, outcomeMap_outcomeMap, funext fun t => flagBlind_replied answer _ false _ _ t]
  exact (key err).trans (key s.busErr).symm

/-- Settles O41: the flag after a step is read off the trace it leaves, and no step reads the flag. -/
theorem busErrSticky : Obligations.BusErrSticky := by
  refine ⟨fun _ => rfl, fun s t h => ?_, step_flagBlind⟩
  obtain ⟨es, hlog, herr⟩ := step_trace h
  have hes : newEvents s t = es := by simp [newEvents, hlog]
  rw [hes, herr]
  rfl

/-! ### The bus log -/

/-- `s` with the events `l` in front of its bus log. -/
def withEarlierEvents (l : List BusEvent) (s : State) : State := { s with busLog := l ++ s.busLog }

theorem withEarlierEvents_replied (l : List BusEvent) (answer : Option (Status × Word16)) (s : State) :
    withEarlierEvents l (replied answer s) = replied answer (withEarlierEvents l s) := by
  cases answer <;> rfl

/-- A step does not read the log (R29). -/
theorem step_withEarlierEvents (s : State) (l : List BusEvent) :
    step (withEarlierEvents l s) = outcomeMap (withEarlierEvents l) (step s) := by
  obtain ⟨es, answer, hes⟩ := step_addsToTrace s
  calc step (withEarlierEvents l s)
      = outcomeMap (fun t => replied answer (t.withTrace (keptFlag s.accepted s.busErr || es.any BusEvent.failed)
          (l ++ s.busLog ++ es) s.responses)) (step s) := hes s.busErr (l ++ s.busLog) s.responses
    _ = outcomeMap (withEarlierEvents l) (step (s.withTrace s.busErr s.busLog s.responses)) := by
      rw [hes, outcomeMap_outcomeMap]
      simp only [withEarlierEvents_replied, List.append_assoc]
      rfl

theorem busRead_log {a : DevAddr} {n : Nat} {s t : State} {bytes : List Byte} (h : busRead a n s = .ok (t, bytes)) :
    t.busLog = s.busLog ++ [.read a n bytes] := by
  unfold busRead at h
  split at h
  · cases h
  · injection h with h
    injection h with ht hb
    rw [← ht, ← hb, afterRead_busLog]

/-- Settles O51: each access adds its event, and a step adds its events to a log it does not read. -/
theorem busLogOnlyAppended : Obligations.BusLogOnlyAppended := by
  refine ⟨fun _ => rfl, fun _ _ _ => rfl, fun _ _ _ _ _ => busRead_log, fun s t h => ?_, step_withEarlierEvents⟩
  obtain ⟨es, hlog, _⟩ := step_trace h
  exact ⟨es, hlog⟩

end Sys2Proof.Machine

/-! PROOF. The decoder by the numbers of a command word (30_encoding.md R82 to R84): its two fields as quotient and
remainder by 16, and which words it rejects, by class. -/

namespace Sys2Proof

/-! ### The fields of a word as numbers -/

theorem opField_toNat (w : Byte) : (opField w).toNat = w.toNat / 16 := by
  have := w.isLt
  simp [opField, Nat.shiftRight_eq_div_pow]
  omega

theorem argField_toNat (w : Byte) : (argField w).toNat = w.toNat % 16 := by
  simp [argField]

theorem codeOfArg_toNat (arg : BitVec 4) : (codeOfArg arg).toNat = arg.toNat % 8 := by
  simp [codeOfArg]

theorem argBit3_iff (arg : BitVec 4) : arg.getLsbD 3 = true ↔ 8 ≤ arg.toNat := by
  revert arg
  decide

/-! ### The rejected words -/

theorem decodeNoOperand_error_iff {arg : BitVec 4} {i : Instr} {e : IllegalWord} :
    decodeNoOperand arg i = .error e ↔ e = .operandNotZero ∧ arg.toNat ≠ 0 := by
  have h0 : arg = 0 ↔ arg.toNat = 0 := BitVec.toNat_inj.symm
  simp only [decodeNoOperand, h0]
  split_ifs with h <;> simp [h, @eq_comm _ e]

theorem decodeSetrange_error_iff {arg : BitVec 4} {e : IllegalWord} :
    decodeSetrange arg = .error e ↔
      (e = .argBit3Set ∧ 8 ≤ arg.toNat) ∨ (e = .rangeCodeUnassigned ∧ 6 ≤ arg.toNat ∧ arg.toNat < 8) := by
  simp only [decodeSetrange, argBit3_iff, codeOfArg_toNat]
  split_ifs with h8 h5
  · simp [h8, @eq_comm _ e]
  · simp [h8]
    omega
  · have h6 : 6 ≤ arg.toNat := by omega
    simp [h8, h6, @eq_comm _ e]
    omega

theorem decodeSetrate_error_iff {arg : BitVec 4} {e : IllegalWord} :
    decodeSetrate arg = .error e ↔ e = .argBit3Set ∧ 8 ≤ arg.toNat := by
  simp only [decodeSetrate, argBit3_iff]
  split_ifs with h8 <;> simp [h8, @eq_comm _ e]

/-- The words the decoder rejects, class by class (R84). -/
theorem decode_error_iff {w : Byte} {e : IllegalWord} :
    decode w = .error e ↔
      (e = .opUnassigned ∧ 6 ≤ w.toNat / 16) ∨
      (e = .operandNotZero ∧ (w.toNat / 16 = 0 ∨ w.toNat / 16 = 4 ∨ w.toNat / 16 = 5) ∧ w.toNat % 16 ≠ 0) ∨
      (e = .argBit3Set ∧ (w.toNat / 16 = 2 ∨ w.toNat / 16 = 3) ∧ 8 ≤ w.toNat % 16) ∨
      (e = .rangeCodeUnassigned ∧ w.toNat / 16 = 2 ∧ 6 ≤ w.toNat % 16 ∧ w.toNat % 16 < 8) := by
  unfold decode
  rw [opField_toNat]
  split
  next h => simp [h, decodeNoOperand_error_iff, argField_toNat]
  next h => simp [h]
  next h => simp [h, decodeSetrange_error_iff, argField_toNat]
  next h => simp [h, decodeSetrate_error_iff, argField_toNat]
  next h => simp [h, decodeNoOperand_error_iff, argField_toNat]
  next h => simp [h, decodeNoOperand_error_iff, argField_toNat]
  next h0 h1 h2 h3 h4 h5 =>
    simp only [imp_false] at h0 h1 h2 h3 h4 h5
    have h6 : 6 ≤ w.toNat / 16 := by omega
    simp [h0, h2, h3, h4, h5, h6, @eq_comm _ e]

/-- The count of R82, evaluated in the kernel word by word. -/
theorem count_legal_words : (List.finRange 256).countP (fun w => (decode (BitVec.ofNat 8 w.val)).toBool) = 33 := by
  decide +kernel

/-- Settles O2, row by row of the opcode map. -/
theorem opcodeMapLegalWords : Obligations.OpcodeMapLegalWords :=
  ⟨rfl, by decide, by decide, by decide, rfl, rfl, count_legal_words⟩

/-- Settles O3: the four classes are those of `decode_error_iff`, and the illegal words are what the legal ones leave of
the 256. -/
theorem illegalWordsByClass : Obligations.IllegalWordsByClass := by
  refine ⟨fun w => ?_, ?_⟩
  · have := w.isLt
    simp only [decode_error_iff, reduceCtorEq, false_and, true_and, false_or, or_false]
    omega
  · have h := List.length_eq_countP_add_countP
      (fun w : Fin 256 => (decode (BitVec.ofNat 8 w.val)).toBool) (l := List.finRange 256)
    rw [count_legal_words, List.length_finRange] at h
    simp only [decide_not, Bool.decide_eq_true] at h
    omega

end Sys2Proof

/-! PROOF. The response of every step (30_encoding.md R90 to R92): its status as a function of the command and of what
the step met, said once for every kind of step. -/

namespace Sys2Proof.Machine

/-! ### What an operation says to the host -/

/-- What an operation from `s` to `t` says to the host: it takes no further word, and it gives the response of the status
`answer`, or none and leaves a FETCH waiting (R92). -/
structure Replies (s t : State) (answer : Option Status) : Prop where
  hostCmds : t.hostCmds = s.hostCmds
  busy : t.fetchBusy = answer.isNone
  responses : ∃ data, t.responses =
    s.responses ++ answer.toList.map fun status => responseWord t.busErr status t.st data

theorem replies_of_response {s t : State} {status : Status} {data : Word16} (hh : t.hostCmds = s.hostCmds)
    (hb : t.fetchBusy = false) (hr : t.responses = s.responses ++ [responseWord t.busErr status t.st data]) :
    Replies s t (some status) :=
  ⟨hh, hb, data, hr⟩

/-- A response is given with `busErr` and `st` as the operation leaves them (R16). -/
theorem replies_respond {s u : State} (status : Status) (data : Word16) (hh : u.hostCmds = s.hostCmds)
    (hb : u.fetchBusy = false) (hr : u.responses = s.responses) :
    Replies s (respond status data u) (some status) :=
  replies_of_response (data := data) hh hb (by simp [hr])

/-! ### The accepting step of a command -/

/-- The status a command answers with, `failed` saying whether one of its accesses failed and `st` being the session
state it leaves; none for FETCH, which only begins to wait (R164, R130). -/
def commandStatus : Instr → Bool → SessionState → Option Status
  | .nop, _, _ => some .ok
  | .trigger _, failed, _ => some (triggerStatus !failed)
  | .setrange _, _, _ => some .ok
  | .setrate _, _, _ => some .ok
  | .poll, failed, st => some (pollStatus st failed)
  | .fetch, _, _ => none

theorem newEvents_eq {s t : State} {es : List BusEvent} (h : t.busLog = s.busLog ++ es) : newEvents s t = es := by
  simp [newEvents, h]

theorem execTrigger_replies {p : BitVec 4} {s t : State} (hb : s.fetchBusy = false) (h : execTrigger p s = .next t) :
    Replies s t (commandStatus (.trigger p) ((newEvents s t).any BusEvent.failed) t.st) := by
  injection h with ht
  have hes : newEvents s t = [triggerEvent p s] := newEvents_eq (by rw [← ht]; rfl)
  have hf : (!(newEvents s t).any BusEvent.failed) = triggerAck p s := by
    simp [hes, triggerEvent, BusEvent.failed]
  rw [commandStatus, hf, ← ht]
  exact replies_respond _ _ rfl hb rfl

theorem execPoll_replies {s t : State} (hb : s.fetchBusy = false) (h : execPoll s = .next t) :
    Replies s t (commandStatus .poll ((newEvents s t).any BusEvent.failed) t.st) := by
  obtain ⟨u, a, hp, rfl⟩ := execPoll_cases h
  have e := pollStep_spec hp
  obtain ⟨hbu, hr, hh, _⟩ := e.kept
  obtain ⟨es, hlog, hfail, _⟩ := e.events
  have hes : newEvents s (respond (pollStatus u.st a.fail) a.data u) = es := newEvents_eq hlog
  rw [commandStatus, hes, ← hfail]
  exact replies_respond _ _ hh (hbu.trans hb) hr

theorem exec_replies {i : Instr} {s t : State} (hb : s.fetchBusy = false) (h : exec i s = .next t) :
    Replies s t (commandStatus i ((newEvents s t).any BusEvent.failed) t.st) := by
  cases i with
  | nop => injection h with ht; exact ht ▸ replies_respond _ _ rfl hb rfl
  | trigger p => exact execTrigger_replies hb h
  | setrange r => injection h with ht; exact ht ▸ replies_respond _ _ rfl hb rfl
  | setrate r => injection h with ht; exact ht ▸ replies_respond _ _ rfl hb rfl
  | poll => exact execPoll_replies hb h
  | fetch => injection h with ht; exact ht ▸ ⟨rfl, rfl, 0, (List.append_nil _).symm⟩

/-! ### The iteration of a FETCH -/

/-- One of the last two events failed: those of the result read, when a FETCH has made one (R131). -/
def lastReadFailed (es : List BusEvent) : Bool := (es.drop (es.length - 2)).any BusEvent.failed

theorem lastReadFailed_append (es : List BusEvent) (e e' : BusEvent) :
    lastReadFailed (es ++ [e, e']) = [e, e'].any BusEvent.failed := by
  simp [lastReadFailed]

theorem any_failed_of_lastReadFailed {es : List BusEvent} (h : lastReadFailed es = true) :
    es.any BusEvent.failed = true := by
  obtain ⟨e, he, hf⟩ := List.any_eq_true.mp h
  exact List.any_eq_true.mpr ⟨e, List.mem_of_mem_drop he, hf⟩

/-- The status a FETCH iteration answers with, by the session state before and after it and the result read; none while
it waits on (R131, R164). -/
def iterationStatus (before after : SessionState) (failed : Bool) : Option Status :=
  if after = .await then none
  else if after = .timedOut then some .timedOut
  else if before = .idle then some .notReady
  else if failed then some .busError else some .ok

/-- A poll step neither enters IDLE nor leaves it (R125, R126). -/
theorem pollStep_idle_iff {s t : State} {a : PollAnswer} (h : pollStep s = .ok (t, a)) : t.st = .idle ↔ s.st = .idle := by
  have e := pollStep_spec h
  by_cases hs : s.st = .await
  · obtain ⟨_, _, _, _, ⟨hn, _⟩ | ⟨_, _, bytes, _, _, hst⟩⟩ := e.events
    · exact absurd hs hn
    · rw [(hst hs).1, hs]
      split_ifs <;> decide
  · rw [(e.elsewhere hs).1]

theorem fetchIterate_replies {s t : State} (hb : s.fetchBusy = true) (h : fetchIterate s = .next t) :
    Replies s t (iterationStatus s.st t.st (lastReadFailed (newEvents s t))) := by
  obtain ⟨u, a, hp, _, _, _, hh, _, _, hend⟩ := fetchIterate_spec h
  have e := pollStep_spec hp
  have hidle := pollStep_idle_iff hp
  obtain ⟨hbu, hr, _, _⟩ := e.kept
  obtain ⟨es, hes, _⟩ := e.events
  have hread : ∀ w r, t.busLog = u.busLog ++ [w, r] → lastReadFailed (newEvents s t) = [w, r].any BusEvent.failed :=
    fun w r hlog => by
      rw [newEvents_eq (hlog.trans (hes ▸ List.append_assoc _ _ _)), lastReadFailed_append]
  rcases hend with ⟨hu, rfl⟩ | ⟨hbt, hend⟩
  · rw [iterationStatus, if_pos hu]
    exact ⟨hh, hbu.trans hb, 0, by simp [hr]⟩
  cases hend with
  | timedOut hu ht log err reads resp =>
    simp only [iterationStatus, ht]
    exact replies_of_response hh hbt resp
  | nothing hu ht log err reads resp =>
    simp only [iterationStatus, ht, hidle.mp hu]
    exact replies_of_response hh hbt resp
  | sample b0 b1 hu ht log err reads resp =>
    have hs : s.st ≠ .idle := fun hs => by simp [hidle.mpr hs] at hu
    have hf : lastReadFailed (newEvents s t) = false := hread _ _ log
    simp only [iterationStatus, ht, hs, hf]
    exact replies_of_response hh hbt resp
  | failed k bytes hu ht le log bad err reads resp =>
    have hs : s.st ≠ .idle := fun hs => by simp [hidle.mpr hs] at hu
    have hf : lastReadFailed (newEvents s t) = true := by
      rw [hread _ _ log, ← bad]
      simp [BusEvent.failed]
    simp only [iterationStatus, ht, hs, hf]
    exact replies_of_response hh hbt (err.symm ▸ resp)

/-! ### Every step -/

/-- The status of the response of a step from `s` to `t`: by R91 and R164, read off the states and the events between
them; none where a FETCH is left waiting. -/
def stepStatus (s t : State) : Option Status :=
  if s.fetchBusy then iterationStatus s.st t.st (lastReadFailed (newEvents s t))
  else match s.accepted with
    | none => some .illegal
    | some i => commandStatus i ((newEvents s t).any BusEvent.failed) t.st

/-- The words still offered once the step from `s` has taken its one, if it takes one (R92). -/
def wordsLeft (s : State) : List Byte := if s.fetchBusy then s.hostCmds else s.hostCmds.tail

/-- The law of every step: the word it takes and the response it gives (R92). -/
theorem step_replies {s t : State} (h : step s = .next t) :
    Replies { s with hostCmds := wordsLeft s } t (stepStatus s t) := by
  obtain ⟨hb, h⟩ | ⟨hb, w, rest, hc, h⟩ := step_cases h
  · have hw : wordsLeft s = s.hostCmds := if_pos hb
    rw [hw, stepStatus, if_pos hb]
    exact fetchIterate_replies hb h
  · have hw : wordsLeft s = rest := by simp [wordsLeft, hb, hc]
    rw [hw, stepStatus, if_neg (by simp [hb])]
    obtain ⟨i, hd, h⟩ | ⟨e, hd, h⟩ := h
    · rw [accepted_of_legal hb hc hd]
      exact exec_replies (s := { s with hostCmds := rest }) hb h
    · rw [accepted_of_illegal hb hc hd]
      injection h with ht
      exact ht ▸ replies_respond _ _ rfl hb rfl

/-! ### One response per command -/

theorem commandStatus_eq_none_iff {i : Instr} {failed : Bool} {st : SessionState} :
    commandStatus i failed st = none ↔ i = .fetch := by
  cases i <;> simp [commandStatus]

theorem stepStatus_eq_none_of_fetch {s t : State} (h : s.accepted = some .fetch) : stepStatus s t = none := by
  have hb : ¬ s.fetchBusy = true := fun hb => by simp [accepted_of_busy hb] at h
  rw [stepStatus, if_neg hb, h]
  rfl

theorem fetch_of_stepStatus_eq_none {s t : State} (h : stepStatus s t = none) :
    s.fetchBusy = true ∨ s.accepted = some .fetch := by
  unfold stepStatus at h
  split_ifs at h with hb
  · exact .inl hb
  · split at h
    · cases h
    · next i hi => exact .inr (hi.trans (congrArg some (commandStatus_eq_none_iff.mp h)))

/-- A step with no FETCH in progress takes the first offered word (R92). -/
theorem hostCmds_of_accept {s t : State} (hb : s.fetchBusy = false) (h : step s = .next t) :
    ∃ w, s.hostCmds = w :: t.hostCmds := by
  have hl : t.hostCmds = wordsLeft s := (step_replies h).hostCmds
  match hc : s.hostCmds with
  | [] =>
    rw [step_of_ended ⟨hb, hc⟩] at h
    cases h
  | w :: rest => exact ⟨w, by simp [hl, wordsLeft, hb, hc]⟩

/-- Settles O37: each clause is read off the law of every step. -/
theorem oneResponsePerCommand : Obligations.OneResponsePerCommand := by
  intro s t h
  obtain ⟨hhost, hbusy, data, hresp⟩ := step_replies h
  refine ⟨fun hb => hhost.trans (if_pos hb), fun hb => hostCmds_of_accept hb h, fun hb => ?_, fun hf => ?_,
    _, hresp, ?_⟩
  · rw [hbusy, Option.isNone_iff_eq_none] at hb
    exact fetch_of_stepStatus_eq_none hb
  · rw [hbusy, stepStatus_eq_none_of_fetch hf]
    rfl
  · rw [hbusy]
    cases stepStatus s t <;> rfl

/-! ### The statuses as produced -/

/-- The rows of R91 for FETCH's response. -/
theorem iterationStatus_produced {before after : SessionState} {failed : Bool} {status : Status}
    (h : iterationStatus before after failed = some status) :
    (status = .notReady → before = .idle) ∧ (status = .timedOut → after = .timedOut) ∧
      (status = .busError → failed = true) ∧ status ≠ .illegal := by
  unfold iterationStatus at h
  split_ifs at h <;> cases h <;> simp [*]

/-- The rows of R91 for the response of the accepting step of a command. -/
theorem commandStatus_produced {i : Instr} {failed : Bool} {st : SessionState} {status : Status}
    (h : commandStatus i failed st = some status) :
    status ≠ .notReady ∧ (status = .timedOut → st = .timedOut ∧ i = .poll) ∧
      (status = .busError → failed = true ∧ (i = .poll ∨ ∃ p, i = .trigger p)) ∧ status ≠ .illegal := by
  cases i with
  | fetch => cases h
  | poll =>
    injection h with h
    subst h
    unfold pollStatus
    split_ifs <;> simp [*]
  | trigger p =>
    injection h with h
    subst h
    cases failed <;> simp [triggerStatus]
  | _ =>
    injection h with h
    subst h
    simp

/-- Settles O38: the status is the step's, and each kind of step keeps to its rows of R91. -/
theorem statusesAsProduced : Obligations.StatusesAsProduced := by
  refine ⟨⟨rfl, rfl, rfl, rfl, rfl⟩, fun s t h => ?_⟩
  obtain ⟨_, _, data, hresp⟩ := step_replies h
  match hst : stepStatus s t with
  | none => exact .inl (by simpa [hst] using hresp)
  | some status =>
    refine .inr ⟨status, data, by simpa [hst] using hresp, ?_⟩
    unfold stepStatus at hst
    split_ifs at hst with hb
    · obtain ⟨hn, ht, hf, hi⟩ := iterationStatus_produced hst
      exact ⟨fun h => ⟨hb, hn h⟩, fun h => ⟨ht h, .inl hb⟩, fun h => ⟨any_failed_of_lastReadFailed (hf h), .inl hb⟩,
        by simp [hi, hb]⟩
    · split at hst
      · next hc =>
        injection hst with hst
        subst hst
        simp [hc, hb]
      · next i hc =>
        obtain ⟨hn, ht, hf, hi⟩ := commandStatus_produced hst
        simpa [hc, hb, hn, hi] using And.intro ht hf

end Sys2Proof.Machine

/-! PROOF. The channel/config encoder by the numbers of its operands (40_encoder.md R100 to R104): the pair of a port,
the configuration word as a sum, and TRIGGER's use of both. -/

namespace Sys2Proof.Machine

/-! ### The device of a port -/

theorem selectDevice_addr_toNat (port : BitVec 4) : (selectDevice port).1.toNat = 0x48 + port.toNat / 4 := by
  have hbase : baseAddr.toNat = 0x48 := rfl
  have := port.isLt
  rw [selectDevice, BitVec.toNat_add, BitVec.toNat_ofNat, hbase]
  omega

theorem selectDevice_mux_toNat (port : BitVec 4) : (selectDevice port).2.toNat = 4 + port.toNat % 4 := by
  have hfirst : (4 : Code3).toNat = 4 := rfl
  rw [selectDevice, BitVec.toNat_add, BitVec.toNat_ofNat, hfirst]
  omega

/-- Settles O5: the formula by the two values of a port's pair, and its examples by evaluation. -/
theorem selectDeviceFormula : Obligations.SelectDeviceFormula :=
  ⟨fun port => ⟨selectDevice_addr_toNat port, selectDevice_mux_toNat port⟩, rfl, rfl, rfl, rfl, rfl⟩

/-! ### The configuration word -/

/-- A term that begins above every bit of `b` is joined to it without a carry. -/
theorem or_shiftLeft_eq_add {i b : Nat} (h : b < 2 ^ i) (a : Nat) : b ||| a <<< i = b + a <<< i := by
  rw [Nat.or_comm, ← Nat.shiftLeft_add_eq_or_of_lt h, Nat.add_comm]

/-- The terms of R102 stand in rising places and do not meet, so their OR is their sum. -/
theorem configTerms_or_eq_add {mux range rate : Nat} (hm : mux < 8) (hr : range < 8) (ht : rate < 8) :
    0x0003 ||| (rate <<< 5) ||| 0x0100 ||| (range <<< 9) ||| (mux <<< 12) ||| 0x8000 =
      0x0003 + (rate <<< 5) + 0x0100 + (range <<< 9) + (mux <<< 12) + 0x8000 := by
  have hMode : 0x0100 = 1 <<< 8 := rfl
  have hOs : 0x8000 = 1 <<< 15 := rfl
  rw [hMode, hOs, or_shiftLeft_eq_add (i := 5), or_shiftLeft_eq_add (i := 8), or_shiftLeft_eq_add (i := 9),
    or_shiftLeft_eq_add (i := 12), or_shiftLeft_eq_add (i := 15)] <;> omega

/-- A code shifted to its place in the word loses no bit. -/
theorem code_shiftLeft_toNat (code : Code3) {i : Nat} (hi : i ≤ 13) :
    (code.setWidth 16 <<< i).toNat = code.toNat <<< i := by
  have hp : 2 ^ i ≤ 2 ^ 13 := Nat.pow_le_pow_right (by decide) hi
  have hlt : code.toNat * 2 ^ i < 2 ^ 3 * 2 ^ 13 := Nat.mul_lt_mul_of_lt_of_le code.isLt hp (by decide)
  rw [BitVec.toNat_shiftLeft, BitVec.toNat_setWidth_of_le (by decide), Nat.shiftLeft_eq]
  exact Nat.mod_eq_of_lt hlt

theorem buildConfigWord_toNat_or (mux range rate : Code3) :
    (buildConfigWord mux range rate).toNat =
      0x0003 ||| (rate.toNat <<< 5) ||| 0x0100 ||| (range.toNat <<< 9) ||| (mux.toNat <<< 12) ||| 0x8000 := by
  simp (disch := decide) only [buildConfigWord, BitVec.toNat_or, code_shiftLeft_toNat]
  rfl

theorem buildConfigWord_toNat (mux range rate : Code3) :
    (buildConfigWord mux range rate).toNat =
      0x0003 + (rate.toNat <<< 5) + 0x0100 + (range.toNat <<< 9) + (mux.toNat <<< 12) + 0x8000 :=
  (buildConfigWord_toNat_or mux range rate).trans (configTerms_or_eq_add mux.isLt range.isLt rate.isLt)

/-- The bits R102 fixes for every operand, and bit 14, the upper bit of a mux code from 4 on. -/
theorem buildConfigWord_fixedBits {mux : Code3} (hm : 4 ≤ mux.toNat) (range rate : Code3) :
    let w := buildConfigWord mux range rate
    w.getLsbD 15 = true ∧ w.getLsbD 8 = true ∧ w.extractLsb' 0 5 = 0b00011#5 ∧ w.getLsbD 14 = true := by
  have hw := buildConfigWord_toNat mux range rate
  have := mux.isLt
  have := range.isLt
  have := rate.isLt
  simp only [Nat.shiftLeft_eq] at hw
  simp only [← BitVec.toNat_inj, BitVec.extractLsb'_toNat, BitVec.getLsbD, Nat.testBit_eq_decide_div_mod_eq, hw,
    BitVec.toNat_ofNat, Nat.shiftRight_zero, decide_eq_true_eq]
  omega

/-- The bounds of R102 for its legal operands. -/
theorem buildConfigWord_bounds {mux range : Code3} (hm : 4 ≤ mux.toNat) (hr : range.toNat ≤ 5) (rate : Code3) :
    0xC103 ≤ (buildConfigWord mux range rate).toNat ∧ (buildConfigWord mux range rate).toNat ≤ 0xFBE3 := by
  have := mux.isLt
  have := rate.isLt
  simp only [buildConfigWord_toNat, Nat.shiftLeft_eq]
  omega

/-- Settles O7: the legal operands are codes, so the laws of the word of any codes say it all. -/
theorem configWordOfLegalCodes : Obligations.ConfigWordOfLegalCodes := by
  refine ⟨fun m r t => ?_, rfl, rfl, rfl⟩
  have hm : (BitVec.ofNat 3 (4 + m)).toNat = 4 + m := Nat.mod_eq_of_lt (by omega)
  have hr : (BitVec.ofNat 3 r).toNat = r := Nat.mod_eq_of_lt (by omega)
  have ht : (BitVec.ofNat 3 t).toNat = t := Nat.mod_eq_of_lt (by omega)
  have hor := buildConfigWord_toNat_or (BitVec.ofNat 3 (4 + m)) (BitVec.ofNat 3 r) (BitVec.ofNat 3 t)
  have hsum := buildConfigWord_toNat (BitVec.ofNat 3 (4 + m)) (BitVec.ofNat 3 r) (BitVec.ofNat 3 t)
  rw [hm, hr, ht] at hor hsum
  obtain ⟨hOs, hMode, hComp, hMux⟩ := buildConfigWord_fixedBits (mux := BitVec.ofNat 3 (4 + m)) (by omega)
    (BitVec.ofNat 3 r) (BitVec.ofNat 3 t)
  refine ⟨?_, hsum, hOs, hMode, hComp, hMux, buildConfigWord_bounds (by omega) (by omega) _⟩
  rw [← hor, BitVec.ofNat_toNat, BitVec.setWidth_eq]

/-! ### TRIGGER's use of the encoder -/

/-- The data field of a response word (R90). -/
@[simp] theorem respData_responseWord (err : Bool) (status : Status) (st : SessionState) (data : Word16) :
    respData (responseWord err status st data) = data :=
  BitVec.extractLsb'_append_eq_right

/-- TRIGGER takes its device and its word from the encoder, applied to the codes the state holds (R104, R120). -/
theorem exec_trigger (port : BitVec 4) (s : State) :
    exec (.trigger port) s =
      let e := encodeConversion port s.rangeCode s.rateCode
      let r := writeConfig e.1 e.2.2 (startSession e.1 e.2.1 s)
      .next (respond (triggerStatus r.2) e.2.2 (noteFailure (!r.2) r.1)) := rfl

/-- Settles O9: the pair and the word by definition, and TRIGGER's registers and response by the fields of its next
state. -/
theorem encoderCombined : Obligations.EncoderCombined :=
  ⟨fun _ _ _ => rfl, rfl, fun port s =>
    ⟨_, _, exec_trigger port s, respond_responses _ _ _, rfl, rfl, respData_responseWord _ _ _ _⟩⟩

end Sys2Proof.Machine

/-! PROOF. The configuration family (41_config.md R110 to R114): the next states of NOP, SETRANGE and SETRATE and of an
illegal word, and the configuration write of the TRIGGER that follows. -/

namespace Sys2Proof.Machine

/-! ### The next states -/

theorem exec_nop (s : State) :
    exec .nop s = .next { s with responses := s.responses ++ [responseWord s.busErr .ok s.st 0x0000] } := rfl

theorem exec_setrange (r : Code3) (s : State) :
    exec (.setrange r) s = .next { s with
      rangeCode := r, responses := s.responses ++ [responseWord s.busErr .ok s.st 0x0000] } := rfl

theorem exec_setrate (t : Code3) (s : State) :
    exec (.setrate t) s = .next { s with
      rateCode := t, responses := s.responses ++ [responseWord s.busErr .ok s.st 0x0000] } := rfl

theorem execIllegal_eq (s : State) :
    execIllegal s = .next { s with responses := s.responses ++ [responseWord s.busErr .illegal s.st 0x0000] } := rfl

/-- Every illegal word runs the rule of R161. -/
theorem runWord_of_illegal {w : Byte} {e : IllegalWord} (h : decode w = .error e) (s : State) :
    runWord w s = execIllegal s := by
  simp only [runWord, h]

/-- A command that leaves the log empty, and the TRIGGER after it: the log is the one write of the encoder's word, made
from the codes the command left (R104, R120). -/
theorem exec_then_trigger {i : Instr} {s s' : State} (hi : exec i s = .next s') (hlog : s'.busLog = [])
    {p : BitVec 4} {addr : DevAddr} {mux : Code3} {w : Word16} {bytes : List Byte}
    (hw : encodeConversion p s'.rangeCode s'.rateCode = (addr, mux, w))
    (hb : [configPointer, hiByte w, loByte w] = bytes) :
    ∃ t u ack, exec i s = .next t ∧ exec (.trigger p) t = .next u ∧ u.busLog = [.write addr bytes ack] := by
  refine ⟨s', _, nextAck addr bytes (startSession addr mux s'), hi, exec_trigger p s', ?_⟩
  simp [hw, hb, hlog]

/-! ### The words of SETRANGE and SETRATE -/

/-- The code does not meet the opcode above it, so joining the two is adding them, as the opcode map does (R82). -/
theorem decode_setrange_word (r : Fin 6) :
    decode (BitVec.ofNat 8 (0x20 ||| r.val)) = .ok (.setrange (BitVec.ofNat 3 r)) := by
  obtain ⟨-, -, hrange, -⟩ := opcodeMapLegalWords
  have hw : 0x20 ||| r.val = 0x20 + r.val := (Nat.two_pow_add_eq_or_of_lt (i := 4) (by omega) 2).symm
  rw [hw, hrange]

theorem decode_setrate_word (t : Fin 8) :
    decode (BitVec.ofNat 8 (0x30 ||| t.val)) = .ok (.setrate (BitVec.ofNat 3 t)) := by
  obtain ⟨-, -, -, hrate, -⟩ := opcodeMapLegalWords
  have hw : 0x30 ||| t.val = 0x30 + t.val := (Nat.two_pow_add_eq_or_of_lt (i := 4) (by omega) 3).symm
  rw [hw, hrate]

/-- The other words of SETRANGE's opcode: two range codes that are not assigned, then those with `arg[3] = 1` (R84). -/
theorem decode_setrange_illegal (k : Fin 10) : ∃ e, decode (BitVec.ofNat 8 (0x26 + k)) = .error e := by
  obtain ⟨-, -, hbit, hcode⟩ := illegalWordsByClass.1 (BitVec.ofNat 8 (0x26 + k))
  rw [BitVec.toNat_ofNat] at hbit hcode
  by_cases hk : k.val < 2
  · exact ⟨_, hcode.mpr (by omega)⟩
  · exact ⟨_, hbit.mpr (by omega)⟩

/-! ### The three commands -/

/-- Settles O14: the words by the opcode map and the illegal classes, the next state by `exec_nop`. -/
theorem nopResult : Obligations.NopResult := by
  refine ⟨opcodeMapLegalWords.1, fun k => ?_, exec_nop, fun p => ?_⟩
  · obtain ⟨-, hzero, -⟩ := illegalWordsByClass.1 (BitVec.ofNat 8 (0x01 + k))
    exact hzero.mpr (by rw [BitVec.toNat_ofNat]; omega)
  · have hr : responseWord false .ok .idle 0x0000 = 0x000000 := rfl
    rw [exec_nop, ← hr]
    rfl

/-- Settles O16: the next states by `exec_setrange` and the rule of illegal words, the next TRIGGER's word by
`exec_then_trigger`. -/
theorem setrangeResult : Obligations.SetrangeResult := by
  refine ⟨decode_setrange_word, fun r => exec_setrange _, fun k s => ?_, fun p => ?_⟩
  · obtain ⟨e, he⟩ := decode_setrange_illegal k
    exact ⟨e, he, (runWord_of_illegal he s).trans (execIllegal_eq s)⟩
  · have hw : encodeConversion 0 1 4 = (0x48, 4, 0xC383) := rfl
    exact exec_then_trigger (exec_setrange 1 _) rfl hw (by decide)

/-- Settles O17: the next state by `exec_setrate`, the next TRIGGER's word by `exec_then_trigger`. -/
theorem setrateResult : Obligations.SetrateResult := by
  refine ⟨decode_setrate_word, fun k => ?_, exec_setrate, fun p => ?_⟩
  · obtain ⟨-, -, hbit, -⟩ := illegalWordsByClass.1 (BitVec.ofNat 8 (0x38 + k))
    exact hbit.mpr (by rw [BitVec.toNat_ofNat]; omega)
  · have hw : encodeConversion 0 2 7 = (0x48, 4, 0xC5E3) := rfl
    exact exec_then_trigger (exec_setrate 7 _) rfl hw (by decide)

end Sys2Proof.Machine

/-! PROOF. The conversion family (42_conversion.md R120 to R131): TRIGGER's next state, the poll step inside AWAIT and
outside it, and what POLL and an Iterate step make of the state their poll step leaves. -/

namespace Sys2Proof.Machine

/-! ### What the operations do to the result of a run -/

theorem respond_result (status : Status) (data : Word16) (s : State) :
    (respond status data s).result = { s.result with
      responses := s.responses ++ [responseWord s.busErr status s.st data] } := rfl

theorem noteFailure_result (fail : Bool) (s : State) :
    (noteFailure fail s).result = { s.result with busErr := s.busErr || fail } := rfl

theorem afterRegister_result (p : Byte) (s : State) :
    (afterRegister p s).result = { s.result with busLog := s.busLog ++ registerEvents p s } := by
  simp [State.result, registerEvents]

/-! ### TRIGGER -/

/-- The port does not meet the opcode above it, so joining the two is adding them, as the opcode map does (R82). -/
theorem decode_trigger_word (p : Fin 16) :
    decode (BitVec.ofNat 8 (0x10 ||| p.val)) = .ok (.trigger (BitVec.ofNat 4 p)) := by
  obtain ⟨-, hport, -⟩ := opcodeMapLegalWords
  have hw : 0x10 ||| p.val = 0x10 + p.val := (Nat.two_pow_add_eq_or_of_lt (i := 4) p.isLt 1).symm
  rw [hw, hport]

/-- The registers, the event and the response of a TRIGGER whose encoder gives `addr`, `mux` and `w` and whose write is
answered `ack` (R120). -/
theorem exec_trigger_result {p : BitVec 4} {s : State} {addr : DevAddr} {mux : Code3} {w : Word16} {ack : Bool}
    (he : encodeConversion p s.rangeCode s.rateCode = (addr, mux, w))
    (hk : nextAck addr [configPointer, hiByte w, loByte w] s = ack) :
    ∃ t, exec (.trigger p) s = .next t ∧ t.result = { s.result with
      activeAddr := addr, activeMux := mux, st := .await, pollCount := 0, busErr := !ack
      busLog := s.busLog ++ [.write addr [configPointer, hiByte w, loByte w] ack]
      responses := s.responses ++ [responseWord (!ack) (triggerStatus ack) .await w] } := by
  have hstart : nextAck addr [configPointer, hiByte w, loByte w] (startSession addr mux s) = ack :=
    (nextAck_congr rfl rfl _ _).trans hk
  exact ⟨_, exec_trigger p s, by simp [he, hstart, State.result]⟩

/-- Settles O19: the words by the opcode map, the next state and its example by `exec_trigger_result`. -/
theorem triggerResult : Obligations.TriggerResult := by
  refine ⟨decode_trigger_word, fun p s => exec_trigger_result rfl rfl, fun p => ?_⟩
  have he : encodeConversion 5 2 4 = (0x49, 5, 0xD583) := rfl
  obtain ⟨t, ht, hr⟩ := exec_trigger_result (p := 5) (ack := true)
    (s := { State.resetWith { p with resetRange := 2, resetRate := 4 } with acks := [true] }) he rfl
  simp only [State.result, RunResult.mk.injEq] at hr
  obtain ⟨hresp, hst, haddr, hmux, -, -, -, -, -, hlog⟩ := hr
  exact ⟨t, ht, hlog, haddr, hmux, hst, hresp⟩

/-- Settles O20: `startSession` overwrites the five session values, so the two runs of TRIGGER are the same one. -/
theorem triggerDiscardsOldSession : Obligations.TriggerDiscardsOldSession :=
  fun p s _ _ _ _ _ => ⟨rfl, _, exec_trigger p s, rfl⟩

/-! ### The word a poll reads -/

/-- A read that is not of two bytes gives no word, so a poll's data is 0x0000 (R125). -/
theorem pollData_of_length_ne_two {bytes : List Byte} (h : bytes.length ≠ 2) : pollData bytes = 0x0000 := by
  match bytes, h with
  | [], _ => rfl
  | [_], _ => rfl
  | _ :: _ :: _ :: _, _ => rfl

/-- `done` is bit 15 of the data, since a short read has data 0x0000 (R125). -/
theorem pollDone_eq_getLsbD_pollData (bytes : List Byte) : pollDone bytes = (pollData bytes).getLsbD 15 := by
  unfold pollDone pollData
  cases wordOfBytes bytes <;> rfl

/-- Bit 15 of two bytes is bit 7 of the first (R55). -/
theorem getLsbD_joinBytes_15 (b0 b1 : Byte) : (joinBytes b0 b1).getLsbD 15 = b0.getLsbD 7 :=
  BitVec.getLsbD_append

/-! ### The poll step -/

theorem pollStep_of_await {s : State} (hs : s.st = .await) (ho : readOverlong 2 s = false) :
    pollStep s = .ok (awaitPolled s,
      ⟨accessFailed (registerAnswer configPointer s), pollData (registerAnswer configPointer s).bytes⟩) := by
  simp [pollStep_eq, pollAwait_eq, hs, ho]

theorem pollStep_of_silent {s : State} (hs : s.st ≠ .await) (hp : s.params.pollReadsWhenNotAwaiting = false) :
    pollStep s = .ok (s, ⟨false, 0x0000⟩) := by
  simp [pollStep_eq, pollElsewhere_eq, hs, hp]

theorem pollStep_of_elsewhere {s : State} (hs : s.st ≠ .await) (hp : s.params.pollReadsWhenNotAwaiting = true)
    (ho : readOverlong 2 s = false) :
    pollStep s = .ok (elsewherePolled s, ⟨accessFailed (registerAnswer configPointer s), 0x0000⟩) := by
  simp [pollStep_eq, pollElsewhere_eq, hs, hp, ho]

/-- Everything a poll in AWAIT leaves (R125). -/
theorem awaitPolled_result {s : State} (hs : s.st = .await) :
    (awaitPolled s).result = { s.result with
      busErr := s.busErr || accessFailed (registerAnswer configPointer s)
      st := if (pollData (registerAnswer configPointer s).bytes).getLsbD 15 then .ready
        else if s.params.maxPolls ≠ 0 ∧ s.pollCount + 1 = s.params.maxPolls then .timedOut else .await
      pollCount := if (pollData (registerAnswer configPointer s).bytes).getLsbD 15 ∨ s.params.maxPolls = 0
        then s.pollCount else s.pollCount + 1
      busLog := s.busLog ++ registerEvents configPointer s } := by
  simp only [awaitPolled, pollAdvance_eq, pollDone_eq_getLsbD_pollData, State.result, noteFailure_st,
    noteFailure_busLog, afterRegister_st, afterRegister_busLog, hs]
  rfl

/-- Everything a poll outside AWAIT leaves when it reads the device (R126). -/
theorem elsewherePolled_result (s : State) :
    (elsewherePolled s).result = { s.result with
      busErr := s.busErr || accessFailed (registerAnswer configPointer s)
      busLog := s.busLog ++ registerEvents configPointer s } := by
  rw [elsewherePolled, noteFailure_result, afterRegister_result]
  rfl

theorem awaitPolled_hostCmds (s : State) : (awaitPolled s).hostCmds = s.hostCmds := by
  simp [awaitPolled, pollAdvance_eq]

/-- Settles O21: the poll step in AWAIT answers with `awaitPolled`, and its data is what the statement spells out. -/
theorem pollStepInAwait : Obligations.PollStepInAwait := by
  intro s hs ho a fail data
  have hdata : data = pollData a.bytes := by
    simp only [data]
    generalize a.bytes = bytes
    match bytes with
    | [] => rfl
    | [_] => rfl
    | [_, _] => rfl
    | _ :: _ :: _ :: _ => rfl
  rw [hdata]
  exact ⟨registerAnswer_bytes_le _ ho, _, pollStep_of_await hs ho, awaitPolled_hostCmds s, awaitPolled_result hs⟩

/-- Settles O22: without the parameter the poll step is silent, and with it it answers with `elsewherePolled`. -/
theorem pollStepElsewhere : Obligations.PollStepElsewhere := fun s hs =>
  ⟨pollStep_of_silent hs, fun hp ho => ⟨_, pollStep_of_elsewhere hs hp ho, rfl, elsewherePolled_result s⟩⟩

/-! ### POLL -/

/-- The words of an opcode without an operand whose `arg` is not 0 (R84). -/
theorem decode_nonzero_operand {base : Nat} (hb : base = 0x41 ∨ base = 0x51) (k : Fin 15) :
    decode (BitVec.ofNat 8 (base + k)) = .error .operandNotZero := by
  obtain ⟨-, hzero, -⟩ := illegalWordsByClass.1 (BitVec.ofNat 8 (base + k))
  exact hzero.mpr (by rw [BitVec.toNat_ofNat]; omega)

/-- POLL is its poll step and one response (R127). -/
theorem exec_poll_of_pollStep {s t : State} {a : PollAnswer} (h : pollStep s = .ok (t, a)) :
    exec .poll s = .next (respond (pollStatus t.st a.fail) a.data t) := by
  simp only [exec, execPoll, h]

theorem pollStatus_of_no_failure (st : SessionState) :
    pollStatus st false = if st = .timedOut then .timedOut else .ok := rfl

/-- A POLL in AWAIT without a limit: bit 15 of the data decides READY, and the status says whether an access failed. -/
theorem exec_poll_of_await {s : State} {a : RegisterAnswer} (hs : s.st = .await) (hm : s.params.maxPolls = 0)
    (ho : readOverlong 2 s = false) (ha : registerAnswer configPointer s = a) :
    ∃ t, exec .poll s = .next t ∧ t.st = (if (pollData a.bytes).getLsbD 15 then .ready else .await) ∧
      t.responses = s.responses ++
        [responseWord (s.busErr || accessFailed a) (if accessFailed a then .busError else .ok) t.st
          (pollData a.bytes)] := by
  have hr := awaitPolled_result hs
  simp only [State.result, RunResult.mk.injEq, ha, hm, ne_eq, not_true_eq_false, false_and, if_false] at hr
  obtain ⟨hresp, hst, -, -, -, -, herr, -⟩ := hr
  have hn : (awaitPolled s).st ≠ .timedOut := by
    rw [hst]
    split_ifs <;> decide
  refine ⟨_, exec_poll_of_pollStep (pollStep_of_await hs ho), hst, ?_⟩
  rw [respond_responses, hresp, herr, pollStatus, if_neg hn, ha, respond_st]

/-- The first listed read answer is what the next register read gets, whatever the ack (R53). -/
theorem registerAnswer_bytes_of_listed {s : State} {bytes : List Byte} {rest : List (List Byte)} (p : Byte)
    (h : s.reads = bytes :: rest) : (registerAnswer p s).bytes = bytes := by
  simp [registerAnswer, nextRead, h]

theorem registerAnswer_of_listed {s : State} {k : Bool} {ks : List Bool} {bytes : List Byte} {rest : List (List Byte)}
    (p : Byte) (hk : s.acks = k :: ks) (hr : s.reads = bytes :: rest) : registerAnswer p s = ⟨k, bytes⟩ := by
  simp [registerAnswer, nextAck, nextRead, hk, hr]

theorem readOverlong_of_listed {s : State} {bytes : List Byte} {rest : List (List Byte)}
    (h : s.reads = bytes :: rest) (hl : bytes.length ≤ 2) : readOverlong 2 s = false := by
  simpa [readOverlong, h] using hl

/-- Settles O23: POLL by its poll step, in AWAIT by `exec_poll_of_await`, and outside it by the silent poll step. -/
theorem pollResult : Obligations.PollResult := by
  refine ⟨rfl, decode_nonzero_operand (.inl rfl), fun s h => ?_, fun s b0 b1 rest ks hs hm hr hk => ?_,
    fun s bytes rest hs hm hr hl => ?_, fun s hs hp => ?_⟩
  · obtain ⟨t, a, hp⟩ := pollStep_answers h
    exact ⟨t, a, hp, exec_poll_of_pollStep hp⟩
  · obtain ⟨t, ht, hst, hresp⟩ := exec_poll_of_await hs hm (readOverlong_of_listed hr (Nat.le_refl 2))
      (registerAnswer_of_listed configPointer hk hr)
    have hd : pollData [b0, b1] = joinBytes b0 b1 := rfl
    have hf : accessFailed ⟨true, [b0, b1]⟩ = false := rfl
    rw [hd, getLsbD_joinBytes_15] at hst
    rw [hd, hf, Bool.or_false] at hresp
    exact ⟨t, ht, hst, hresp⟩
  · have hb := registerAnswer_bytes_of_listed configPointer hr
    obtain ⟨t, ht, hst, hresp⟩ := exec_poll_of_await hs hm (readOverlong_of_listed hr (by omega)) rfl
    have hd : pollData bytes = 0x0000 := pollData_of_length_ne_two (by omega)
    have hf : accessFailed (registerAnswer configPointer s) = true := by simp [accessFailed, hb, hl]
    rw [hb, hd] at hst hresp
    rw [hf, Bool.or_true, hst] at hresp
    exact ⟨t, ht, hst, hresp⟩
  · rw [exec_poll_of_pollStep (pollStep_of_silent hs hp), pollStatus_of_no_failure]
    rfl

/-! ### FETCH -/

/-- Settles O26: the words by the opcode map and the illegal classes, the acceptance by its arm, the step by R31. -/
theorem fetchAcceptance : Obligations.FetchAcceptance :=
  ⟨rfl, decode_nonzero_operand (.inr rfl), fun _ => rfl, fun _ => blockStep_busy⟩

/-- An Iterate step is its poll step and what `fetchEnd` makes of the state it leaves (R131). -/
theorem step_of_pollStep {s t : State} {a : PollAnswer} (hb : s.fetchBusy = true) (h : pollStep s = .ok (t, a)) :
    step s = fetchEnd t := by
  simp only [blockStep_busy hb, fetchIterate, h]

theorem fetchEnd_await {t : State} (h : t.st = .await) : fetchEnd t = .next t := by
  simp only [fetchEnd, h]

theorem fetchEnd_timedOut {t : State} (h : t.st = .timedOut) :
    fetchEnd t = .next (respond .timedOut sentinel { t with fetchBusy := false }) := by
  simp only [fetchEnd, h]

theorem fetchEnd_idle {t : State} (h : t.st = .idle) :
    fetchEnd t = .next (respond .notReady sentinel { t with fetchBusy := false }) := by
  simp only [fetchEnd, h]

/-- The result read asks the active device, whatever the session state and `fetchBusy` are (R131). -/
theorem resultAnswer_eq (t : State) : resultAnswer t = registerAnswer resultPointer t := rfl

/-- Everything a result read leaves before its response (R131). -/
theorem resultRead_result (t : State) :
    (resultRead t).result = { t.result with
      st := .idle, fetchBusy := false, busLog := t.busLog ++ registerEvents resultPointer t } :=
  afterRegister_result resultPointer { t with st := .idle, fetchBusy := false }

/-- A read within the contract fails when the write is not acknowledged or the read is not of two bytes (R163). -/
theorem accessFailed_of_bad {a : RegisterAnswer} (hl : a.bytes.length ≤ 2)
    (h : a.ack = false ∨ a.bytes.length ≠ 2) : accessFailed a = true := by
  rcases h with hk | hn
  · simp [accessFailed, hk]
  · simp [accessFailed, Nat.lt_of_le_of_ne hl hn]

/-- FETCH's READY branch after a complete read: the two bytes big-endian, the flag untouched (R131). -/
theorem fetchEnd_ready_complete {t : State} {b0 b1 : Byte} (ht : t.st = .ready) (ho : readOverlong 2 t = false)
    (hk : (registerAnswer resultPointer t).ack = true) (hb : (registerAnswer resultPointer t).bytes = [b0, b1]) :
    ∃ v, fetchEnd t = .next v ∧ v.result = { t.result with
      st := .idle, fetchBusy := false, busLog := t.busLog ++ registerEvents resultPointer t
      responses := t.responses ++ [responseWord t.busErr .ok .idle (joinBytes b0 b1)] } := by
  have hf : accessFailed (registerAnswer resultPointer t) = false := by simp [accessFailed, hk, hb]
  have hd : pollData (registerAnswer resultPointer t).bytes = joinBytes b0 b1 := by rw [hb]; rfl
  refine ⟨respond .ok (joinBytes b0 b1) (resultRead t), ?_, ?_⟩
  · simp [fetchEnd_ready ht, ho, resultAnswer_eq, hf, hd]
  · rw [respond_result, resultRead_result]
    rfl

/-- FETCH's READY branch after a failed access: the sentinel, with the flag set (R131, R165). -/
theorem fetchEnd_ready_failed {t : State} (ht : t.st = .ready) (ho : readOverlong 2 t = false)
    (hf : accessFailed (registerAnswer resultPointer t) = true) :
    ∃ v, fetchEnd t = .next v ∧ v.result = { t.result with
      st := .idle, fetchBusy := false, busErr := true, busLog := t.busLog ++ registerEvents resultPointer t
      responses := t.responses ++ [responseWord true .busError .idle sentinel] } := by
  have he : (noteFailure true (resultRead t)).busErr = true := by simp
  refine ⟨respond .busError sentinel (noteFailure true (resultRead t)), ?_, ?_⟩
  · simp [fetchEnd_ready ht, ho, resultAnswer_eq, hf]
  · rw [respond_result, noteFailure_result, resultRead_result, he, Bool.or_true]
    rfl

/-- Settles O27: an Iterate step is `fetchEnd` of the state its poll step leaves, taken state by state. -/
theorem fetchIteration : Obligations.FetchIteration := by
  intro s t a hb hp
  rw [step_of_pollStep hb hp]
  refine ⟨fetchEnd_await, fun ht => ?_, fun ht => ?_, fun ht ho => ⟨fun _ _ => ?_, fun hbad => ?_⟩⟩
  · rw [fetchEnd_timedOut ht, respond, ht]
    rfl
  · rw [fetchEnd_idle ht, respond, ht]
    rfl
  · exact fetchEnd_ready_complete ht ho
  · have hl := registerAnswer_bytes_le resultPointer ho
    exact fetchEnd_ready_failed ht ho (accessFailed_of_bad hl hbad)

end Sys2Proof.Machine

/-! PROOF. The existence probe (43_probe.md R151): bit i of the presence mask is the test of address 0x48 + i. -/

namespace Sys2Proof.Machine

theorem present_iff {avail : DevAddr → Nat} {a : DevAddr} : present avail a = true ↔ 1 ≤ avail a :=
  decide_eq_true_iff

/-- The mask joins four single bits, the one of the lowest address last, so each bit reads back its own address. -/
theorem presenceMask_getLsbD (avail : DevAddr → Nat) (i : Fin 4) :
    (presenceMask avail).getLsbD i = present avail (BitVec.ofNat 7 (0x48 + i)) := by
  simp only [presenceMask, BitVec.getLsbD_append, BitVec.getLsbD_ofBool]
  fin_cases i <;> rfl

/-- Settles O55: a mask bit is `present` of its address, and the example by evaluation. -/
theorem presenceMaskBits : Obligations.PresenceMaskBits := by
  refine ⟨fun avail i => ?_, by decide⟩
  rw [presenceMask_getLsbD, present_iff]

end Sys2Proof.Machine

/-! PROOF. What a response says about how its step went (60_exceptions.md R161 to R165): the answer to an illegal word,
FETCH with nothing to fetch, and the status as the first condition of its command's row that holds. -/

namespace Sys2Proof.Machine

/-! ### Illegal words -/

theorem step_of_illegal_eq {s : State} {w : Byte} {rest : List Byte} {e : IllegalWord} (h : s.fetchBusy = false)
    (hc : s.hostCmds = w :: rest) (hd : decode w = .error e) :
    step s = .next { s with
      hostCmds := rest, responses := s.responses ++ [responseWord s.busErr .illegal s.st 0x0000] } :=
  (step_of_illegal h hc hd).trans (execIllegal_eq _)

/-- Settles O18: the next state by `step_of_illegal_eq`, and its example by the value of its response word. -/
theorem illegalWordResponse : Obligations.IllegalWordResponse := by
  refine ⟨fun _ _ _ _ => step_of_illegal_eq, fun s hb hs he hc => ?_⟩
  have hd : decode 0x26 = .error .rangeCodeUnassigned := by decide
  have hr : responseWord false .illegal .await 0x0000 = 0x110000 := rfl
  rw [step_of_illegal_eq hb hc hd, he, hs, hr]

/-! ### FETCH with nothing to fetch -/

/-- Settles O29: outside AWAIT the poll step changes neither the session state nor the responses, so the Iterate step
takes its TIMEDOUT or its IDLE branch. -/
theorem fetchWithNothingReady : Obligations.FetchWithNothingReady := by
  intro s hb ho
  obtain ⟨u, a, hp⟩ := pollStep_answers ho
  have e := pollStep_spec hp
  obtain ⟨-, hresp, -, -⟩ := e.kept
  obtain ⟨-, hTimedOut, hIdle, -⟩ := fetchIteration s u a hb hp
  refine ⟨fun hs => ?_, fun hs => ?_⟩
  · have hu : u.st = .idle := (e.elsewhere (by simp [hs])).1.trans hs
    exact ⟨_, hIdle hu, hu, rfl, by rw [hresp]⟩
  · have hu : u.st = .timedOut := (e.elsewhere (by simp [hs])).1.trans hs
    exact ⟨_, hTimedOut hu, hu, rfl, by rw [hresp]⟩

/-! ### The two fields of a response that tell of failures -/

/-- The status field of a response word (R90). -/
@[simp] theorem respStatus_responseWord (err : Bool) (status : Status) (st : SessionState) (data : Word16) :
    respStatus (responseWord err status st data) = statusCode status := by
  have := (statusCode status).isLt
  have := (stateCode st).isLt
  have := data.isLt
  apply BitVec.eq_of_toNat_eq
  rw [respStatus, BitVec.extractLsb'_toNat, responseWord_toNat, Nat.shiftRight_eq_div_pow]
  omega

/-- The err bit of a response word (R90). -/
@[simp] theorem respErr_responseWord (err : Bool) (status : Status) (st : SessionState) (data : Word16) :
    respErr (responseWord err status st data) = err := by
  have := (statusCode status).isLt
  have := (stateCode st).isLt
  have := data.isLt
  rw [respErr, BitVec.getLsbD, Nat.testBit_eq_decide_div_mod_eq, responseWord_toNat]
  cases err
  · rw [decide_eq_false_iff_not, Bool.toNat_false]
    omega
  · rw [decide_eq_true_iff, Bool.toNat_true]
    omega

/-- A step with one response has a status, and the response shows it beside the flag at the end of the step. -/
theorem step_response_fields {s t : State} {r : RespWord} (h : step s = .next t)
    (hr : t.responses = s.responses ++ [r]) :
    ∃ status, stepStatus s t = some status ∧ respErr r = t.busErr ∧ respStatus r = statusCode status := by
  obtain ⟨_, _, data, hresp⟩ := step_replies h
  have hone := List.append_cancel_left (hr.symm.trans hresp)
  match hst : stepStatus s t with
  | none => simp [hst] at hone
  | some status =>
    obtain rfl : r = responseWord t.busErr status t.st data := by simpa [hst] using hone
    exact ⟨status, rfl, respErr_responseWord _ _ _ _, respStatus_responseWord _ _ _ _⟩

/-! ### The rows of R164 -/

theorem statusCode_triggerStatus (failed : Bool) : statusCode (triggerStatus !failed) = if failed then 3 else 0 := by
  cases failed <;> rfl

theorem statusCode_pollStatus (st : SessionState) (failed : Bool) :
    statusCode (pollStatus st failed) = if st = .timedOut then 2 else if failed then 3 else 0 := by
  unfold pollStatus
  split_ifs <;> rfl

theorem statusCode_of_iterationStatus {before after : SessionState} {failed : Bool} {status : Status}
    (h : iterationStatus before after failed = some status) :
    statusCode status = if after = .timedOut then 2 else if before = .idle then 1 else if failed then 3 else 0 := by
  unfold iterationStatus at h
  split_ifs at h ⊢ <;> cases h <;> rfl

theorem stepStatus_of_accepted {s t : State} {i : Instr} (h : s.accepted = some i) :
    stepStatus s t = commandStatus i ((newEvents s t).any BusEvent.failed) t.st := by
  have hb : ¬ s.fetchBusy = true := fun hb => by simp [accepted_of_busy hb] at h
  rw [stepStatus, if_neg hb, h]

/-- An iteration that ends a FETCH with neither NOT_READY nor TIMED_OUT made the result read last, so its failure is
read off the end of the whole log (R131). -/
theorem lastReadFailed_busLog {s t : State} (h : fetchIterate s = .next t) (hs : s.st ≠ .idle) (hw : t.st ≠ .await)
    (ht : t.st ≠ .timedOut) : lastReadFailed t.busLog = lastReadFailed (newEvents s t) := by
  obtain ⟨u, a, hp, _, _, _, _, _, _, hend⟩ := fetchIterate_spec h
  obtain ⟨es, hes, _⟩ := (pollStep_spec hp).events
  have hread : ∀ w r, t.busLog = u.busLog ++ [w, r] → lastReadFailed t.busLog = lastReadFailed (newEvents s t) :=
    fun w r hlog => by
      rw [newEvents_eq (hlog.trans (hes ▸ List.append_assoc _ _ _)), hlog, lastReadFailed_append,
        lastReadFailed_append]
  rcases hend with ⟨hu, rfl⟩ | ⟨_, hend⟩
  · exact absurd hu hw
  cases hend with
  | timedOut _ hst => exact absurd hst ht
  | nothing hu => exact absurd ((pollStep_idle_iff hp).mp hu) hs
  | sample _ _ _ _ log => exact hread _ _ log
  | failed _ _ _ _ _ log => exact hread _ _ log

/-- FETCH's row: the status of an iteration that responds, the result read's failure read off the end of the log. -/
theorem respStatus_of_busy {s t : State} {r : RespWord} (hb : s.fetchBusy = true) (h : step s = .next t)
    (hr : t.responses = s.responses ++ [r]) :
    respStatus r = if t.st = .timedOut then 2 else if s.st = .idle then 1
      else if lastReadFailed t.busLog then 3 else 0 := by
  obtain ⟨status, hst, _, hs⟩ := step_response_fields h hr
  rw [stepStatus, if_pos hb] at hst
  have hw : t.st ≠ .await := fun hw => by simp [iterationStatus, hw] at hst
  rw [hs, statusCode_of_iterationStatus hst]
  by_cases ht : t.st = .timedOut
  · rw [if_pos ht, if_pos ht]
  by_cases hi : s.st = .idle
  · rw [if_pos hi, if_pos hi]
  rw [lastReadFailed_busLog (blockStep_busy hb ▸ h) hi hw ht]

/-- The rows of the accepting steps: the status is the one of the command. -/
theorem respStatus_of_accepted {s t : State} {r : RespWord} {i : Instr} {status : Status} (h : step s = .next t)
    (hr : t.responses = s.responses ++ [r]) (hi : s.accepted = some i)
    (hc : commandStatus i ((newEvents s t).any BusEvent.failed) t.st = some status) :
    respStatus r = statusCode status := by
  obtain ⟨status', hst, _, hs⟩ := step_response_fields h hr
  rw [stepStatus_of_accepted hi, hc] at hst
  rw [hs, Option.some.inj hst]

/-- A failure before or in an iteration of FETCH is in the flag after it (R26). -/
theorem busErr_of_busy {s t : State} (hb : s.fetchBusy = true) (h : step s = .next t) :
    t.busErr = (s.busErr || (newEvents s t).any BusEvent.failed) := by
  obtain ⟨-, hflag, -⟩ := busErrSticky
  rw [hflag s t h, accepted_of_busy hb]

/-- Settles O39: the err bit by the flag's law, and each row by the status of its kind of step. -/
theorem statusPriority : Obligations.StatusPriority := by
  intro s t r h hr anyFailed resultFailed
  obtain ⟨status, hst, herr, hs⟩ := step_response_fields h hr
  refine ⟨herr, fun hb hf => ?_, fun hb => respStatus_of_busy hb h hr, fun hb hn => ?_,
    fun hi => respStatus_of_accepted h hr hi rfl, fun _ hi => respStatus_of_accepted h hr hi rfl,
    fun _ hi => respStatus_of_accepted h hr hi rfl,
    fun _ hi => (respStatus_of_accepted h hr hi rfl).trans (statusCode_triggerStatus _),
    fun hi => (respStatus_of_accepted h hr hi rfl).trans (statusCode_pollStatus _ _), fun hi => ?_⟩
  · rw [herr, busErr_of_busy hb h, Bool.or_eq_true]
    exact hf
  · rw [stepStatus, if_neg (by simp [hb]), hn] at hst
    injection hst with hst
    rw [hs, ← hst]
    rfl
  · rw [stepStatus_eq_none_of_fetch hi] at hst
    cases hst

end Sys2Proof.Machine

/-! PROOF. Reset (70_reset_and_hazards.md R180): the registers and the trace it leaves, whatever the block was doing, and
the Accept step that follows. -/

namespace Sys2Proof.Machine

/-- While no FETCH waits, the step is Accept (R31), whether or not a word is offered. -/
theorem step_of_not_busy {s : State} (h : s.fetchBusy = false) : step s = acceptNext s := by
  simp [step, blockStep, h]

@[simp] theorem hostReset_fetchBusy (p : Params) (s : State) : (hostReset p s).fetchBusy = false := rfl

/-- What a host reset keeps of the block's state before it is no part of a run's result. -/
@[simp] theorem hostReset_result (p : Params) (s : State) :
    (hostReset p s).result = (State.resetWith p).result := rfl

/-- Settles O53: the reset values by definition, the same from every state by `hostReset_result`, and no FETCH waits
after a reset, so the step is Accept. -/
theorem resetValues : Obligations.ResetValues :=
  ⟨fun _ => rfl, hostReset_result, fun p s => step_of_not_busy (hostReset_fetchBusy p s)⟩

end Sys2Proof.Machine

/-! PROOF. Decoder and encoder against each other (30_encoding.md R81 to R84): a word is its two fields, and the decoder
reads off them the one command that the encoder writes into them. -/

namespace Sys2Proof

/-! ### The two fields of a command's word -/

theorem opField_encode (i : Instr) : opField (encode i) = opOf i := (Laws.WordFields.fields_of_append _ _).1

theorem argField_encode (i : Instr) : argField (encode i) = argOf i := (Laws.WordFields.fields_of_append _ _).2

/-- A word is its two fields side by side (R81). -/
theorem opField_append_argField (w : Byte) : opField w ++ argField w = w :=
  (BitVec.extractLsb'_append_extractLsb'_eq_extractLsb' rfl).trans BitVec.extractLsb'_eq_self

theorem encode_eq_of_fields {i : Instr} {w : Byte} (hop : opField w = opOf i) (harg : argField w = argOf i) :
    encode i = w := by
  rw [encode, ← hop, ← harg, opField_append_argField]

/-! ### The code in an operand field -/

@[simp] theorem codeOfArg_setWidth (c : Code3) : codeOfArg (c.setWidth 4) = c := by
  revert c
  decide

@[simp] theorem argBit3_setWidth (c : Code3) : (c.setWidth 4).getLsbD 3 = false := by
  revert c
  decide

theorem setWidth_codeOfArg {arg : BitVec 4} (h : arg.getLsbD 3 = false) : (codeOfArg arg).setWidth 4 = arg := by
  revert arg
  decide

/-! ### The accepted operands -/

theorem decodeNoOperand_ok_iff {arg : BitVec 4} {i j : Instr} :
    decodeNoOperand arg i = .ok j ↔ arg = 0 ∧ j = i := by
  unfold decodeNoOperand
  split_ifs with h
  · simp [h, @eq_comm _ j]
  · exact ⟨nofun, fun hj => absurd hj.1 h⟩

/-- SETRANGE's operand is a range code 0..5 below a zero bit (R82). -/
theorem decodeSetrange_ok {arg : BitVec 4} {i : Instr} (h : decodeSetrange arg = .ok i) :
    ∃ r : Code3, i = .setrange r ∧ r.toNat ≤ 5 ∧ arg = r.setWidth 4 := by
  unfold decodeSetrange at h
  split_ifs at h with h3 h5
  injection h with h
  exact ⟨_, h.symm, h5, (setWidth_codeOfArg (by simpa using h3)).symm⟩

/-- SETRATE's operand is a rate code below a zero bit (R82). -/
theorem decodeSetrate_ok {arg : BitVec 4} {i : Instr} (h : decodeSetrate arg = .ok i) :
    ∃ t : Code3, i = .setrate t ∧ arg = t.setWidth 4 := by
  unfold decodeSetrate at h
  split_ifs at h with h3
  injection h with h
  exact ⟨_, h.symm, (setWidth_codeOfArg (by simpa using h3)).symm⟩

/-! ### The two directions -/

/-- A word that decodes gives a well-formed command with the word's own fields. -/
theorem decode_ok {w : Byte} {i : Instr} (h : decode w = .ok i) :
    i.wf = true ∧ opField w = opOf i ∧ argField w = argOf i := by
  unfold decode at h
  split at h
  next hop =>
    obtain ⟨harg, rfl⟩ := decodeNoOperand_ok_iff.mp h
    exact ⟨rfl, BitVec.eq_of_toNat_eq hop, harg⟩
  next hop =>
    injection h with h
    subst h
    exact ⟨rfl, BitVec.eq_of_toNat_eq hop, rfl⟩
  next hop =>
    obtain ⟨r, rfl, hr, harg⟩ := decodeSetrange_ok h
    exact ⟨decide_eq_true hr, BitVec.eq_of_toNat_eq hop, harg⟩
  next hop =>
    obtain ⟨t, rfl, harg⟩ := decodeSetrate_ok h
    exact ⟨rfl, BitVec.eq_of_toNat_eq hop, harg⟩
  next hop =>
    obtain ⟨harg, rfl⟩ := decodeNoOperand_ok_iff.mp h
    exact ⟨rfl, BitVec.eq_of_toNat_eq hop, harg⟩
  next hop =>
    obtain ⟨harg, rfl⟩ := decodeNoOperand_ok_iff.mp h
    exact ⟨rfl, BitVec.eq_of_toNat_eq hop, harg⟩
  next => cases h

theorem wf_of_decode {w : Byte} {i : Instr} (h : decode w = .ok i) : i.wf = true := (decode_ok h).1

theorem encode_of_decode {w : Byte} {i : Instr} (h : decode w = .ok i) : encode i = w := by
  obtain ⟨-, hop, harg⟩ := decode_ok h
  exact encode_eq_of_fields hop harg

theorem decode_encode {i : Instr} (h : i.wf = true) : decode (encode i) = .ok i := by
  unfold decode
  rw [opField_encode, argField_encode]
  cases i with
  | nop => rfl
  | trigger p => rfl
  | setrange r =>
    have hr : r.toNat ≤ 5 := of_decide_eq_true h
    simp [opOf, argOf, decodeSetrange, hr]
  | setrate t => simp [opOf, argOf, decodeSetrate]
  | poll => rfl
  | fetch => rfl

/-- Settles O1: the decoder undoes the encoder command by command, and a decoded command has the fields of its word. -/
theorem decodeEncodeRoundTrip : Obligations.DecodeEncodeRoundTrip :=
  ⟨fun _ => decode_encode, fun _ _ h => ⟨wf_of_decode h, encode_of_decode h⟩⟩

/-- Settles O4: the words are closed, so the decoder is evaluated on them. -/
theorem sampleWordsDecode : Obligations.SampleWordsDecode := by
  unfold Obligations.SampleWordsDecode
  decide

end Sys2Proof

/-! PROOF. Bit fields and bytes: the device of a port and the fields of the configuration word read back
(40_encoder.md R100, R102), the fields of a response word (30_encoding.md R90), and the byte order (20_memory.md
R55). -/

namespace Sys2Proof.Machine

/-! ### The device of a port -/

theorem selectDevice_legal (port : BitVec 4) :
    LegalAddr (selectDevice port).1 ∧ 4 ≤ (selectDevice port).2.toNat := by
  have haddr := selectDevice_addr_toNat port
  have hmux := selectDevice_mux_toNat port
  have := port.isLt
  omega

/-- Settles O6: the inverse by the numbers of a port's pair, and the sixteen pairs by evaluation. -/
theorem selectDeviceBijection : Obligations.SelectDeviceBijection := by
  refine ⟨fun port => ⟨(selectDevice_legal port).1, (selectDevice_legal port).2, ?_⟩, by decide⟩
  rw [selectDevice_addr_toNat, selectDevice_mux_toNat]
  omega

/-! ### The configuration word -/

/-- Every field of the configuration word reads back, whatever the codes (R86, R102). -/
theorem buildConfigWord_fields (mux range rate : Code3) :
    let w := buildConfigWord mux range rate
    cfgOs w = true ∧ cfgMux w = mux ∧ cfgPga w = range ∧ cfgMode w = true ∧ cfgDr w = rate ∧ cfgComp w = 0b00011 := by
  have hw := buildConfigWord_toNat mux range rate
  have hcomp : (0b00011 : BitVec 5).toNat = 3 := rfl
  have := mux.isLt
  have := range.isLt
  have := rate.isLt
  simp only [Nat.shiftLeft_eq] at hw
  simp only [cfgOs, cfgMux, cfgPga, cfgMode, cfgDr, cfgComp, ← BitVec.toNat_inj, BitVec.extractLsb'_toNat,
    BitVec.getLsbD, Nat.testBit_eq_decide_div_mod_eq, Nat.shiftRight_eq_div_pow, hw, hcomp, decide_eq_true_eq]
  omega

/-- Two words differ in the shifted places of the codes only, since the other bits are fixed (R102). -/
theorem buildConfigWord_xor (m1 g1 t1 m2 g2 t2 : Code3) :
    buildConfigWord m1 g1 t1 ^^^ buildConfigWord m2 g2 t2 =
      ((m1 ^^^ m2).setWidth 16 <<< 12) ||| ((g1 ^^^ g2).setWidth 16 <<< 9) ||| ((t1 ^^^ t2).setWidth 16 <<< 5) := by
  apply BitVec.eq_of_getLsbD_eq
  intro i hi
  simp only [buildConfigWord, BitVec.getLsbD_xor, BitVec.getLsbD_or, BitVec.getLsbD_shiftLeft, BitVec.getLsbD_setWidth]
  interval_cases i <;> simp

/-- Settles O8: the fields read back, so equal words have equal operands. -/
theorem configWordFieldsDisjoint : Obligations.ConfigWordFieldsDisjoint := by
  refine ⟨buildConfigWord_fields, buildConfigWord_xor, fun m1 g1 t1 m2 g2 t2 => ⟨fun h => ?_, ?_⟩⟩
  · obtain ⟨-, hmux, hrange, -, hrate, -⟩ := buildConfigWord_fields m1 g1 t1
    obtain ⟨-, hmux', hrange', -, hrate', -⟩ := buildConfigWord_fields m2 g2 t2
    rw [h] at hmux hrange hrate
    exact ⟨hmux.symm.trans hmux', hrange.symm.trans hrange', hrate.symm.trans hrate'⟩
  · rintro ⟨rfl, rfl, rfl⟩
    rfl

/-! ### The response word -/

/-- The state field of a response word (R90). -/
@[simp] theorem respState_responseWord (err : Bool) (status : Status) (st : SessionState) (data : Word16) :
    respState (responseWord err status st data) = stateCode st := by
  have := (stateCode st).isLt
  have := data.isLt
  apply BitVec.eq_of_toNat_eq
  rw [respState, BitVec.extractLsb'_toNat, responseWord_toNat, Nat.shiftRight_eq_div_pow]
  omega

theorem statusOfCode_statusCode (status : Status) : statusOfCode (statusCode status) = some status := by
  cases status <;> rfl

theorem stateOfCode_stateCode (st : SessionState) : stateOfCode (stateCode st) = st := by
  cases st <;> rfl

/-- Settles O11: each field by its lemma, each code by definition. -/
theorem responseWordFields : Obligations.ResponseWordFields := by
  refine ⟨fun err status st data => ⟨respErr_responseWord _ _ _ _, respStatus_responseWord _ _ _ _, ?_,
    respState_responseWord _ _ _ _, ?_, respData_responseWord _ _ _ _⟩, rfl, rfl, rfl, rfl, rfl, rfl, rfl, rfl, rfl⟩
  · rw [respStatus_responseWord, statusOfCode_statusCode]
  · rw [respState_responseWord, stateOfCode_stateCode]

/-- A response word of status OK and data 0x0000 is its flag and its state (R90). -/
theorem responseWord_ok_zero_toNat (err : Bool) (st : SessionState) :
    (responseWord err .ok st 0x0000).toNat = err.toNat <<< 21 ||| (stateCode st).toNat <<< 16 := by
  have hok : (statusCode .ok).toNat = 0 := rfl
  have hzero : (0x0000 : Word16).toNat = 0 := rfl
  have hst := (stateCode st).isLt
  have hlt : (stateCode st).toNat <<< 16 < 2 ^ 21 := by
    rw [Nat.shiftLeft_eq]
    omega
  rw [responseWord_toNat, ← Nat.shiftLeft_add_eq_or_of_lt hlt, Nat.shiftLeft_eq, Nat.shiftLeft_eq, hok, hzero]
  omega

/-- Settles O15: NOP's response has status OK and data 0x0000. -/
theorem nopResponseWord : Obligations.NopResponseWord := fun s =>
  ⟨_, _, exec_nop s, rfl, respStatus_responseWord _ _ _ _, responseWord_ok_zero_toNat _ _⟩

/-! ### Byte order -/

theorem joinBytes_hiByte_loByte (w : Word16) : joinBytes (hiByte w) (loByte w) = w :=
  (BitVec.extractLsb'_append_extractLsb'_eq_extractLsb' rfl).trans BitVec.extractLsb'_eq_self

theorem joinBytes_toNat (b0 b1 : Byte) : (joinBytes b0 b1).toNat = b0.toNat * 256 + b1.toNat := by
  rw [joinBytes, BitVec.toNat_append, ← Nat.shiftLeft_add_eq_or_of_lt b1.isLt, Nat.shiftLeft_eq]

/-- The sign bit of a word says whether it is in the upper half, so `s16` is two's complement (R13). -/
theorem s16_eq_toInt (w : Word16) : s16 w = w.toInt := by
  rw [s16, BitVec.toInt_eq_msb_cond]
  rfl

/-- Settles O10: the bytes by the halves of an append, and the log of a configuration write by its one event. -/
theorem bigEndianBytes : Obligations.BigEndianBytes :=
  ⟨joinBytes_hiByte_loByte,
    fun b0 b1 => ⟨BitVec.extractLsb'_append_eq_left, BitVec.extractLsb'_append_eq_right, joinBytes_toNat b0 b1, rfl⟩,
    s16_eq_toInt, fun _ _ _ => rfl⟩

end Sys2Proof.Machine

/-! PROOF. The two bus primitives with listed and with free answers (20_memory.md section 2), the commuting of the
two settings commands (70_reset_and_hazards.md section 3), the reset values as legal ones, and the assembler
(30_encoding.md section 5). -/

namespace Sys2Proof.Machine

/-! ### The bus primitives -/

/-- A write is only seen in the log (R52). -/
theorem afterWrite_result (a : DevAddr) (bytes : List Byte) (s : State) :
    (afterWrite a bytes s).result =
      { s.result with busLog := s.busLog ++ [.write a bytes (nextAck a bytes s)] } := rfl

/-- Settles O12: the ack of a write is the first listed one, or the free value where none is listed. -/
theorem busWriteLogsItsAck : Obligations.BusWriteLogsItsAck :=
  ⟨afterWrite_result, fun _ _ _ _ _ => rfl, fun _ _ _ => ⟨_, rfl⟩⟩

theorem busRead_of_listed {a : DevAddr} {n : Nat} {s : State} {bytes : List Byte} {rest : List (List Byte)} :
    busRead a n { s with reads := bytes :: rest } =
      if n < bytes.length then .error .overlongReadAnswer
      else .ok ({ s with reads := rest, draws := s.draws + 1, busLog := s.busLog ++ [.read a n bytes] }, bytes) := by
  simp only [busRead, readOverlong, decide_eq_true_eq]
  rfl

/-- Settles O13: a listed answer is refused by its length alone, and a free one is cut to the requested count. -/
theorem busReadWithinContract : Obligations.BusReadWithinContract := by
  refine ⟨fun a n s bytes rest => ?_, fun a n s => ⟨_, List.length_take_le n (Config.freeBytes s.draws a n), rfl⟩⟩
  rw [busRead_of_listed]
  by_cases h : n < bytes.length
  · rw [if_pos h]
    exact ⟨h, rfl⟩
  · rw [if_neg h]
    exact ⟨Nat.le_of_not_lt h, rfl, rfl⟩

/-! ### SETRANGE and SETRATE in either order -/

/-- Settles O45: either way both codes are written and the same two responses are given. -/
theorem settingOrderIrrelevant : Obligations.SettingOrderIrrelevant := fun s r x =>
  ⟨_, _, _, exec_setrange r s, exec_setrate x _, exec_setrate x s, exec_setrange r _, ⟨rfl, rfl, rfl, rfl⟩,
    ⟨rfl, rfl, rfl, rfl⟩, rfl⟩

/-! ### Reset -/

theorem resetWith_inv {p : Params} (h : p.Legal) : (State.resetWith p).Inv where
  addr := (by decide : LegalAddr 0x48)
  mux := Nat.le_refl 4
  range := h
  countLe := Nat.zero_le _
  countAwait := nofun
  countTimedOut := nofun

/-- Settles O49: the reset values are legal, and the parameters of `State.reset` are. -/
theorem resetRegistersLegal : Obligations.ResetRegistersLegal :=
  ⟨fun _ => resetWith_inv, resetWith_inv (by decide)⟩

/-- Settles O54: `hostReset` takes the two channels from the running block. -/
theorem hostResetKeepsChannels : Obligations.HostResetKeepsChannels :=
  fun _ _ => ⟨rfl, rfl, rfl, rfl, rfl⟩

/-! ### The assembler -/

/-- The encoder writes the word the opcode map gives: `op` and the operand joined (R82, R95). -/
theorem encode_of_decode_word {i : Instr} {op n : Nat} (h : decode (BitVec.ofNat 8 (op ||| n)) = .ok i) :
    encode i = BitVec.ofNat 8 op ||| BitVec.ofNat 8 n :=
  (encode_of_decode h).trans BitVec.ofNat_or

theorem assembleLine_trigger (n : Nat) :
    assembleLine (.trigger n) = if n ≤ 15 then some [0x10 ||| BitVec.ofNat 8 n] else none := by
  by_cases h : n ≤ 15
  · have hw := encode_of_decode_word (decode_trigger_word ⟨n, by omega⟩)
    simp [assembleLine, expand, hostPort, h, hw]
  · simp [assembleLine, expand, hostPort, h]

theorem assembleLine_setrange (n : Nat) :
    assembleLine (.setrange n) = if n ≤ 5 then some [0x20 ||| BitVec.ofNat 8 n] else none := by
  by_cases h : n ≤ 5
  · have hw := encode_of_decode_word (decode_setrange_word ⟨n, by omega⟩)
    simp [assembleLine, expand, hostRange, h, hw]
  · simp [assembleLine, expand, hostRange, h]

theorem assembleLine_setrate (n : Nat) :
    assembleLine (.setrate n) = if n ≤ 7 then some [0x30 ||| BitVec.ofNat 8 n] else none := by
  by_cases h : n ≤ 7
  · have hw := encode_of_decode_word (decode_setrate_word ⟨n, by omega⟩)
    simp [assembleLine, expand, hostRate, h, hw]
  · simp [assembleLine, expand, hostRate, h]

theorem assembleLine_convert (n : Nat) : assembleLine (.convert n) = assemble [.trigger n, .fetch] := by
  simp only [assembleLine, assemble, expand]
  cases hostPort n <;> rfl

theorem assembleLine_sample (p r t : Nat) :
    assembleLine (.sample p r t) = assemble [.setrange r, .setrate t, .trigger p, .fetch] := by
  simp only [assembleLine, assemble, expand]
  cases hostRange r <;> cases hostRate t <;> cases hostPort p <;> rfl

/-- Settles O56: the operands by the opcode map, a pseudo-instruction by the operands it may refuse. -/
theorem assemblerEncodesOrRefuses : Obligations.AssemblerEncodesOrRefuses :=
  ⟨rfl, rfl, rfl, assembleLine_trigger, assembleLine_setrange, assembleLine_setrate, assembleLine_convert,
    assembleLine_sample⟩

end Sys2Proof.Machine

/-! PROOF. What every step keeps (10_state.md sections 1, 3 and 5): the frame of each command and of a FETCH iteration,
then by these the settings, the device, the session state and the poll counter after any step, and the invariant. -/

namespace Sys2Proof.Machine

/-! ### The frame of each command -/

/-- POLL's frame is that of its poll step (R127). -/
theorem exec_poll_frame {s t : State} (h : exec .poll s = .next t) :
    SameSettings s t ∧ t.activeAddr = s.activeAddr ∧ t.activeMux = s.activeMux ∧ t.fetchBusy = s.fetchBusy ∧
      t.params = s.params ∧ t.hostCmds = s.hostCmds ∧ (∃ es, t.busLog = s.busLog ++ es) ∧
      ∃ rs, t.responses = s.responses ++ rs := by
  obtain ⟨u, a, hp, rfl⟩ := execPoll_cases h
  have e := pollStep_spec hp
  obtain ⟨hbusy, hresp, hhost, hparams⟩ := e.kept
  obtain ⟨es, hlog, -⟩ := e.events
  exact ⟨e.settings, e.device.1, e.device.2, hbusy, hparams, hhost, ⟨es, hlog⟩, _, by rw [respond_responses, hresp]⟩

/-- Settles O46: POLL by its poll step, and every other command by its next state. -/
theorem commandFrames : Obligations.CommandFrames := by
  intro i s t h
  have hnil : s.busLog = s.busLog ++ [] := (List.append_nil _).symm
  cases i with
  | nop =>
    injection h with h
    subst h
    exact ⟨rfl, rfl, ⟨[], hnil⟩, ⟨_, rfl⟩, ⟨rfl, rfl, rfl, rfl⟩, ⟨rfl, rfl⟩, ⟨rfl, rfl, rfl, rfl⟩, rfl, rfl⟩
  | trigger p =>
    injection h with h
    subst h
    exact ⟨rfl, rfl, ⟨_, rfl⟩, ⟨_, rfl⟩, ⟨rfl, rfl⟩, rfl, rfl⟩
  | setrange r =>
    injection h with h
    subst h
    exact ⟨rfl, rfl, ⟨[], hnil⟩, ⟨_, rfl⟩, ⟨rfl, rfl, rfl, rfl⟩, rfl, ⟨rfl, rfl, rfl, rfl⟩, rfl, rfl⟩
  | setrate x =>
    injection h with h
    subst h
    exact ⟨rfl, rfl, ⟨[], hnil⟩, ⟨_, rfl⟩, ⟨rfl, rfl, rfl, rfl⟩, rfl, ⟨rfl, rfl, rfl, rfl⟩, rfl, rfl⟩
  | poll =>
    obtain ⟨hset, haddr, hmux, hbusy, hparams, hhost, hlog, hresp⟩ := exec_poll_frame h
    exact ⟨hparams, hhost, hlog, hresp, hset, haddr, hmux, hbusy⟩
  | fetch =>
    injection h with h
    subst h
    exact ⟨rfl, rfl, ⟨[], hnil⟩, ⟨[], (List.append_nil _).symm⟩, ⟨rfl, rfl, rfl, rfl⟩, ⟨rfl, rfl⟩,
      ⟨rfl, rfl, rfl, rfl⟩, rfl, rfl⟩

/-! ### The effect of a FETCH iteration -/

/-- What a FETCH iteration makes of the state `u` its poll step left, `t` being its end: it waits on in AWAIT, reads the
result in READY, and else just ends (R131). -/
structure FetchEffect (u t : State) : Prop where
  count : t.pollCount = u.pollCount
  session : t.st = if u.st = .ready then .idle else u.st
  busy : t.fetchBusy = true ↔ u.st = .await
  reads : t.reads <:+ u.reads
  log : t.busLog = u.busLog ∨ ∃ k bytes, bytes.length ≤ 2 ∧
    t.busLog = u.busLog ++ [.write u.activeAddr [0x00] k, .read u.activeAddr 2 bytes]

theorem fetchIterate_effect {s t : State} (hb : s.fetchBusy = true) (h : fetchIterate s = .next t) :
    ∃ u a, pollStep s = .ok (u, a) ∧ FetchEffect u t := by
  obtain ⟨u, a, hp, _, _, _, _, _, hcount, hend⟩ := fetchIterate_spec h
  have e := pollStep_spec hp
  obtain ⟨hbusy, -⟩ := e.kept
  obtain ⟨haddr, -⟩ := e.device
  refine ⟨u, a, hp, ?_⟩
  rcases hend with ⟨hu, rfl⟩ | ⟨hbt, hend⟩
  · exact ⟨rfl, by simp [hu], by simp [hu, hbusy, hb], List.suffix_rfl, .inl rfl⟩
  cases hend with
  | timedOut hu ht log err reads resp =>
    exact ⟨hcount, by simp [hu, ht], by simp [hu, hbt], reads ▸ List.suffix_rfl, .inl log⟩
  | nothing hu ht log err reads resp =>
    exact ⟨hcount, by simp [hu, ht], by simp [hu, hbt], reads ▸ List.suffix_rfl, .inl log⟩
  | sample b0 b1 hu ht log err reads resp =>
    exact ⟨hcount, by simp [hu, ht], by simp [hu, hbt], reads ▸ List.tail_suffix _,
      .inr ⟨true, [b0, b1], Nat.le_refl 2, haddr ▸ log⟩⟩
  | failed k bytes hu ht le log bad err reads resp =>
    exact ⟨hcount, by simp [hu, ht], by simp [hu, hbt], reads ▸ List.tail_suffix _, .inr ⟨k, bytes, le, haddr ▸ log⟩⟩

/-- A poll step logs no event or the two of its register read, at the active address (R125, R126). -/
theorem PollEffect.log {s t : State} {a : PollAnswer} (e : PollEffect s t a) :
    t.busLog = s.busLog ∨ ∃ k bytes, bytes.length ≤ 2 ∧
      t.busLog = s.busLog ++ [.write s.activeAddr [0x01] k, .read s.activeAddr 2 bytes] := by
  obtain ⟨es, hlog, -, -, ⟨-, -, rfl⟩ | ⟨-, k, bytes, hl, rfl, -⟩⟩ := e.events
  · exact .inl (by simpa using hlog)
  · exact .inr ⟨k, bytes, hl, hlog⟩

/-- Settles O47: the frame by `fetchIterate_spec`, the events as those of the poll and of the result read. -/
theorem fetchIterationFrame : Obligations.FetchIterationFrame := by
  intro s t hb h
  obtain ⟨_, _, _, hset, haddr, hmux, hhost, hparams, -⟩ := fetchIterate_spec (blockStep_busy hb ▸ h)
  obtain ⟨u, a, hp, he⟩ := fetchIterate_effect hb (blockStep_busy hb ▸ h)
  obtain ⟨-, -, data, hresp⟩ := step_replies h
  refine ⟨hset, haddr, hmux, hhost, hparams, ?_, _, hresp⟩
  rcases (pollStep_spec hp).log with hu | ⟨k, bytes, -, hu⟩ <;> rcases he.log with ht | ⟨k', bytes', -, ht⟩
  · exact ⟨[], by simp [ht, hu], by simp⟩
  · exact ⟨_, ht.trans (by rw [hu]), by simp⟩
  · exact ⟨_, ht.trans hu, by simp⟩
  · exact ⟨_, ht.trans (by rw [hu, List.append_assoc]), by simp⟩

/-! ### Every step by what it accepts -/

/-- The kinds of a step that answers, in terms of `State.accepted`: an iteration, an illegal word, a legal command. -/
theorem step_kinds {s t : State} (h : step s = .next t) :
    (s.fetchBusy = true ∧ s.accepted = none ∧ fetchIterate s = .next t) ∨
      (s.fetchBusy = false ∧ s.accepted = none ∧ ∃ rest, execIllegal { s with hostCmds := rest } = .next t) ∨
      (s.fetchBusy = false ∧ ∃ i rest, i.wf = true ∧ s.accepted = some i ∧
        exec i { s with hostCmds := rest } = .next t) := by
  obtain ⟨hb, h⟩ | ⟨hb, w, rest, hc, ⟨i, hd, h⟩ | ⟨e, hd, h⟩⟩ := step_cases h
  · exact .inl ⟨hb, accepted_of_busy hb, h⟩
  · exact .inr (.inr ⟨hb, i, rest, wf_of_decode hd, accepted_of_legal hb hc hd, h⟩)
  · exact .inr (.inl ⟨hb, accepted_of_illegal hb hc hd, rest, h⟩)

/-- A step that accepts the legal command `i` runs it. -/
theorem exec_of_accepted {s t : State} {i : Instr} (h : step s = .next t) (hi : s.accepted = some i) :
    s.fetchBusy = false ∧ i.wf = true ∧ ∃ rest, exec i { s with hostCmds := rest } = .next t := by
  obtain ⟨-, hn, -⟩ | ⟨-, hn, -⟩ | ⟨hb, j, rest, hwf, hj, h⟩ := step_kinds h
  · simp [hn] at hi
  · simp [hn] at hi
  · obtain rfl : j = i := Option.some.inj (hj.symm.trans hi)
    exact ⟨hb, hwf, rest, h⟩

/-- An accepting step other than TRIGGER's and POLL's keeps the session, the log and the read answers. -/
theorem step_sameSession {s t : State} (h : step s = .next t) (hb : s.fetchBusy = false)
    (ht : ∀ p, s.accepted ≠ some (.trigger p)) (hp : s.accepted ≠ some .poll) :
    SameSession s t ∧ t.busLog = s.busLog ∧ t.reads = s.reads := by
  obtain ⟨hbusy, -⟩ | ⟨-, -, rest, h⟩ | ⟨-, i, rest, -, hi, h⟩ := step_kinds h
  · simp [hbusy] at hb
  · injection h with h
    subst h
    exact ⟨⟨rfl, rfl, rfl, rfl⟩, rfl, rfl⟩
  · obtain ⟨-, -, -, -, hf⟩ := commandFrames i _ t h
    cases i with
    | trigger p => exact absurd hi (ht p)
    | poll => exact absurd hi hp
    | _ =>
      obtain ⟨hsession, -, ⟨hlog, -, hreads, -⟩, -⟩ := hf
      exact ⟨hsession, hlog, hreads⟩

/-! ### The settings and the device -/

/-- Settles O43: no frame but SETRANGE's and SETRATE's leaves a setting out. -/
theorem settingsPersist : Obligations.SettingsPersist := by
  intro s t h
  obtain ⟨hb, ha, -⟩ | ⟨-, ha, rest, h⟩ | ⟨-, i, rest, -, ha, h⟩ := step_kinds h <;> rw [ha]
  · obtain ⟨⟨hrange, hrate⟩, -, -, -, hparams, -⟩ := fetchIterationFrame s t hb h
    exact ⟨hparams, hrange, hrate⟩
  · injection h with h
    subst h
    exact ⟨rfl, rfl, rfl⟩
  · obtain ⟨hparams, -, -, -, hf⟩ := commandFrames i _ t h
    refine ⟨hparams, ?_⟩
    cases i with
    | nop => exact hf.2.1
    | trigger p => exact hf.1
    | setrange r =>
      obtain ⟨-, hrate, -⟩ := hf
      injection h with h
      exact ⟨h ▸ rfl, hrate⟩
    | setrate x =>
      obtain ⟨-, hrange, -⟩ := hf
      injection h with h
      exact ⟨hrange, h ▸ rfl⟩
    | poll => exact hf.1
    | fetch => exact hf.2.1

/-- Settles O44: TRIGGER takes its device from the encoder, and every other frame keeps it. -/
theorem deviceSelectedByTriggerOnly : Obligations.DeviceSelectedByTriggerOnly := by
  intro s t h
  obtain ⟨hb, ha, -⟩ | ⟨-, ha, rest, h⟩ | ⟨-, i, rest, -, ha, h⟩ := step_kinds h <;> rw [ha]
  · obtain ⟨-, haddr, hmux, -⟩ := fetchIterationFrame s t hb h
    rw [haddr, hmux]
  · injection h with h
    subst h
    rfl
  · obtain ⟨-, -, -, -, hf⟩ := commandFrames i _ t h
    cases i with
    | trigger p =>
      injection h with h
      subst h
      rfl
    | poll =>
      obtain ⟨-, haddr, hmux, -⟩ := hf
      exact Prod.ext haddr hmux
    | _ =>
      obtain ⟨⟨-, haddr, hmux, -⟩, -⟩ := hf
      exact Prod.ext haddr hmux

end Sys2Proof.Machine

/-! PROOF. The session state and the poll counter after every step (42_conversion.md section 4, 10_state.md section
3), and the invariants they carry: the legal register values and the framed bus log. -/

namespace Sys2Proof.Machine

/-! ### The steps that move the session -/

/-- A TRIGGER starts a session, whatever its bus write is answered (R120). -/
theorem session_of_trigger {s t : State} {p : BitVec 4} (h : step s = .next t)
    (ha : s.accepted = some (.trigger p)) : t.st = .await ∧ t.pollCount = 0 := by
  obtain ⟨-, -, rest, h⟩ := exec_of_accepted h ha
  injection h with h
  subst h
  exact ⟨rfl, rfl⟩

/-- A step that accepts POLL is its poll step and one response (R127). -/
theorem pollStep_of_accepted {s t : State} (h : step s = .next t) (ha : s.accepted = some .poll) :
    ∃ rest u a, PollEffect { s with hostCmds := rest } u a ∧ t = respond (pollStatus u.st a.fail) a.data u := by
  obtain ⟨-, -, rest, h⟩ := exec_of_accepted h ha
  obtain ⟨u, a, hp, ht⟩ := execPoll_cases h
  exact ⟨rest, u, a, pollStep_spec hp, ht⟩

/-- A poll in AWAIT, by the bytes its read returned (R125). -/
theorem PollEffect.await {s t : State} {a : PollAnswer} (e : PollEffect s t a) (hs : s.st = .await) :
    ∃ k bytes, t.busLog = s.busLog ++ [.write s.activeAddr [0x01] k, .read s.activeAddr 2 bytes] ∧
      t.st = (if pollDone bytes then .ready
        else if s.params.maxPolls ≠ 0 ∧ s.pollCount + 1 = s.params.maxPolls then .timedOut else .await) ∧
      t.pollCount = if pollDone bytes = true ∨ s.params.maxPolls = 0 then s.pollCount else s.pollCount + 1 := by
  obtain ⟨es, hlog, -, -, ⟨hn, -⟩ | ⟨-, k, bytes, -, rfl, hst⟩⟩ := e.events
  · exact absurd hs hn
  · exact ⟨k, bytes, hlog, hst hs⟩

/-- A step that polls, by POLL or in an iteration of FETCH, has the poll's count, and the poll's session state
unless the iteration fetched a result and left READY for IDLE (R125 to R131). -/
theorem pollStep_of_polls {s t : State} (h : step s = .next t) (hp : s.fetchBusy = true ∨ s.accepted = some .poll) :
    ∃ rest u a, PollEffect { s with hostCmds := rest } u a ∧ t.pollCount = u.pollCount ∧
      (∃ es, t.busLog = u.busLog ++ es) ∧ (t.st = u.st ∨ (u.st = .ready ∧ t.st = .idle)) := by
  rcases hp with hb | ha
  · obtain ⟨u, a, hp, he⟩ := fetchIterate_effect hb (blockStep_busy hb ▸ h)
    refine ⟨s.hostCmds, u, a, pollStep_spec hp, he.count, ?_, ?_⟩
    · rcases he.log with hlog | ⟨k, bytes, -, hlog⟩
      · exact ⟨[], by simp [hlog]⟩
      · exact ⟨_, hlog⟩
    · by_cases hu : u.st = .ready
      · exact .inr ⟨hu, by rw [he.session, if_pos hu]⟩
      · exact .inl (by rw [he.session, if_neg hu])
  · obtain ⟨rest, u, a, e, rfl⟩ := pollStep_of_accepted h ha
    exact ⟨rest, u, a, e, rfl, ⟨[], (List.append_nil _).symm⟩, .inl rfl⟩

/-! ### The transition table and the counter -/

/-- FETCH's column of the transition table (R131). -/
theorem session_of_iterate {s t : State} (hb : s.fetchBusy = true) (h : step s = .next t) :
    (s.st = .idle → t.st = .idle ∧ t.fetchBusy = false) ∧ (s.st = .ready → t.st = .idle ∧ t.fetchBusy = false) ∧
      (s.st = .timedOut → t.st = .timedOut ∧ t.fetchBusy = false) ∧
      (s.st = .await →
        (t.st = .await ∧ t.fetchBusy = true) ∨ ((t.st = .idle ∨ t.st = .timedOut) ∧ t.fetchBusy = false)) := by
  obtain ⟨u, a, hp, he⟩ := fetchIterate_effect hb (blockStep_busy hb ▸ h)
  have e := pollStep_spec hp
  have hst := he.session
  have hbusy := he.busy
  rw [← Bool.not_eq_true, hbusy]
  refine ⟨fun hs => ?_, fun hs => ?_, fun hs => ?_, fun hs => ?_⟩
  · have hu : u.st = .idle := (e.elsewhere (by simp [hs])).1.trans hs
    simp [hst, hu]
  · have hu : u.st = .ready := (e.elsewhere (by simp [hs])).1.trans hs
    simp [hst, hu]
  · have hu : u.st = .timedOut := (e.elsewhere (by simp [hs])).1.trans hs
    simp [hst, hu]
  · have hu : u.st ≠ .idle := fun hu => by simp [(pollStep_idle_iff hp).mp hu] at hs
    cases hus : u.st
    case idle => exact absurd hus hu
    all_goals simp [hst, hus]

/-- Settles O40: FETCH by `session_of_iterate`, TRIGGER and POLL by their sessions, the rest by `step_sameSession`. -/
theorem sessionTransitions : Obligations.SessionTransitions := by
  refine fun s t h => ⟨fun hb => session_of_iterate hb h, fun hb => ⟨fun p ha => (session_of_trigger h ha).1,
    fun ha hs => ?_, fun ha hs => ?_, fun ht hp => ?_⟩⟩
  · obtain ⟨rest, u, a, e, rfl⟩ := pollStep_of_accepted h ha
    obtain ⟨k, bytes, hlog, hst, -⟩ := e.await hs
    exact ⟨k, bytes, newEvents_eq hlog, hst⟩
  · obtain ⟨rest, u, a, e, rfl⟩ := pollStep_of_accepted h ha
    exact (e.elsewhere hs).1
  · obtain ⟨⟨hst, -⟩, -⟩ := step_sameSession h hb ht hp
    exact hst

/-- Settles O42: a step that polls has its poll's count, and a step that neither polls nor triggers keeps the
session. -/
theorem pollCountMoves : Obligations.PollCountMoves := by
  refine fun s t h => ⟨fun p ha => (session_of_trigger h ha).2, fun hs hp => ?_, fun ht hn => ?_⟩
  · obtain ⟨rest, u, a, e, hcount, ⟨es, hes⟩, hst⟩ := pollStep_of_polls h hp
    obtain ⟨k, bytes, hlog, hust, hucount⟩ := e.await hs
    refine ⟨k, bytes, es, newEvents_eq (by rw [hes, hlog]; simp), fun hd hm => ?_, fun hdm => ?_⟩
    · have hcount' : t.pollCount = s.pollCount + 1 := by simp [hcount, hucount, hd, hm]
      have hlimit : u.st = if t.pollCount = s.params.maxPolls then .timedOut else .await := by
        simp [hust, hcount', hd, hm]
      refine ⟨hcount', hlimit ▸ hst.resolve_right fun hu => ?_⟩
      rw [hlimit] at hu
      split_ifs at hu <;> simp at hu
    · refine ⟨by simp [hcount, hucount, hdm], ?_⟩
      have hu : u.st ≠ .timedOut := by
        rcases hdm with hd | hm
        · simp [hust, hd]
        · simp only [hust, hm, ne_eq, not_true_eq_false, false_and, if_false]
          split_ifs <;> simp
      rcases hst with hst | ⟨-, hst⟩ <;> simp [hst, hu]
  · by_cases hp : s.fetchBusy = true ∨ s.accepted = some .poll
    · obtain ⟨rest, u, a, e, hcount, -, hst⟩ := pollStep_of_polls h hp
      obtain ⟨hust, hucount⟩ := e.elsewhere fun hs => hn ⟨hs, hp⟩
      refine ⟨hcount.trans hucount, fun hto => ?_⟩
      rcases hst with hst | ⟨-, hst⟩
      · exact hust.symm.trans (hst.symm.trans hto)
      · simp [hst] at hto
    · rw [not_or, Bool.not_eq_true] at hp
      obtain ⟨⟨hst, -, -, hcount⟩, -⟩ := step_sameSession h hp.1 ht hp.2
      exact ⟨hcount, fun hto => hst.symm.trans hto⟩

end Sys2Proof.Machine

/-! PROOF. The invariants (10_state.md sections 3 and 5, 20_memory.md sections 1 and 2): the legal register values
by what the settings, the device, the session and the counter do in every step, and the frames of the bus log. -/

namespace Sys2Proof.Machine

/-! ### Legal register values -/

/-- The registers of the device stay legal: TRIGGER selects a legal one (R100). -/
theorem step_device_legal {s t : State} (hs : LegalAddr s.activeAddr ∧ 4 ≤ s.activeMux.toNat) (h : step s = .next t) :
    LegalAddr t.activeAddr ∧ 4 ≤ t.activeMux.toNat := by
  have hd := deviceSelectedByTriggerOnly s t h
  split at hd
  next p _ =>
    have hp := selectDevice_legal p
    rwa [← hd] at hp
  next =>
    obtain ⟨haddr, hmux⟩ := Prod.mk.inj hd
    rwa [haddr, hmux]

/-- The range stays legal: an accepted SETRANGE is well-formed (R83). -/
theorem step_range_legal {s t : State} (hs : s.rangeCode.toNat ≤ 5) (h : step s = .next t) :
    t.rangeCode.toNat ≤ 5 := by
  obtain ⟨-, hrange, -⟩ := settingsPersist s t h
  split at hrange
  next r ha =>
    obtain ⟨-, hwf, -⟩ := exec_of_accepted h ha
    exact hrange ▸ of_decide_eq_true hwf
  next => rwa [hrange]

/-- AWAIT is entered by TRIGGER alone (42_conversion.md section 4). -/
theorem await_of_await_after {s t : State} (h : step s = .next t) (hn : ∀ p, s.accepted ≠ some (.trigger p))
    (ht : t.st = .await) : s.st = .await := by
  obtain ⟨hbusy, haccept⟩ := sessionTransitions s t h
  cases hb : s.fetchBusy with
  | true =>
    obtain ⟨hidle, hready, htimedOut, -⟩ := hbusy hb
    cases hs : s.st with
    | await => rfl
    | idle => exact absurd (ht.symm.trans (hidle hs).1) (by decide)
    | ready => exact absurd (ht.symm.trans (hready hs).1) (by decide)
    | timedOut => exact absurd (ht.symm.trans (htimedOut hs).1) (by decide)
  | false =>
    obtain ⟨-, -, hpoll, hother⟩ := haccept hb
    by_contra hs
    by_cases hp : s.accepted = some .poll
    · exact hs ((hpoll hp hs).symm.trans ht)
    · exact hs ((hother hn hp).symm.trans ht)

/-- How a poll count and a session state belong together under the limit `limit` (R27). -/
structure CountLegal (limit count : Nat) (st : SessionState) : Prop where
  le : count ≤ limit
  await : st = .await → limit ≠ 0 → count < limit
  timedOut : st = .timedOut → limit ≠ 0 ∧ count = limit

/-- A session starts below every limit (R120). -/
theorem countLegal_of_session_start (limit : Nat) : CountLegal limit 0 .await :=
  ⟨Nat.zero_le _, fun _ => Nat.pos_of_ne_zero, nofun⟩

/-- A count within the limit is legal in the state a not-done poll leaves with it (R125). -/
theorem countLegal_of_notDone {limit count : Nat} (hm : limit ≠ 0) (hle : count ≤ limit) :
    CountLegal limit count (if count = limit then .timedOut else .await) := by
  split_ifs with h
  · exact ⟨hle, nofun, fun _ => ⟨hm, h⟩⟩
  · exact ⟨hle, fun _ _ => Nat.lt_of_le_of_ne hle h, nofun⟩

/-- A legal count stays so in every state that is no new AWAIT and no new TIMEDOUT. -/
theorem CountLegal.of_session {limit count : Nat} {st st' : SessionState} (hs : CountLegal limit count st)
    (hawait : st' = .await → st = .await) (hto : st' = .timedOut → st = .timedOut) : CountLegal limit count st' :=
  ⟨hs.le, fun h => hs.await (hawait h), fun h => hs.timedOut (hto h)⟩

/-- The counter stays legal: a session starts at 0, a not-done poll adds one while below the limit, and no other step
moves the counter or enters AWAIT or TIMEDOUT. -/
theorem step_count_legal {s t : State} (hs : CountLegal s.params.maxPolls s.pollCount s.st) (h : step s = .next t) :
    CountLegal s.params.maxPolls t.pollCount t.st := by
  obtain ⟨-, hpolls, hother⟩ := pollCountMoves s t h
  by_cases htrig : ∃ p, s.accepted = some (.trigger p)
  · obtain ⟨p, ha⟩ := htrig
    obtain ⟨hst, hcount⟩ := session_of_trigger h ha
    rw [hst, hcount]
    exact countLegal_of_session_start _
  have hn : ∀ p, s.accepted ≠ some (.trigger p) := fun p ha => htrig ⟨p, ha⟩
  by_cases hp : s.st = .await ∧ (s.fetchBusy = true ∨ s.accepted = some .poll)
  · obtain ⟨k, bytes, rest, -, hnotDone, hstay⟩ := hpolls hp.1 hp.2
    by_cases hd : pollDone bytes = true ∨ s.params.maxPolls = 0
    · obtain ⟨hcount, hto⟩ := hstay hd
      rw [hcount]
      exact hs.of_session (fun _ => hp.1) fun h => absurd h hto
    · obtain ⟨hdone, hm⟩ := not_or.mp hd
      obtain ⟨hcount, hst⟩ := hnotDone (Bool.eq_false_of_not_eq_true hdone) hm
      have hlt := hs.await hp.1 hm
      rw [hst]
      exact countLegal_of_notDone hm (by omega)
  · obtain ⟨hcount, hto⟩ := hother hn hp
    rw [hcount]
    exact hs.of_session (await_of_await_after h hn) hto

/-- Settles O48: the device, the range and the counter each stay legal, under parameters that stay. -/
theorem stepKeepsRegistersLegal : Obligations.StepKeepsRegistersLegal := by
  intro s t hs h
  obtain ⟨haddr, hmux⟩ := step_device_legal ⟨hs.addr, hs.mux⟩ h
  obtain ⟨hparams, -⟩ := settingsPersist s t h
  have hcount := step_count_legal ⟨hs.countLe, hs.countAwait, hs.countTimedOut⟩ h
  rw [← hparams] at hcount
  exact ⟨haddr, hmux, step_range_legal hs.range h, hcount.le, hcount.await, hcount.timedOut⟩

/-- Settles O52: without a limit no poll moves the counter or times out, and a session starts at 0. -/
theorem noTimeoutWithoutLimit : Obligations.NoTimeoutWithoutLimit := by
  intro s t hm hs h
  obtain ⟨-, hpolls, hother⟩ := pollCountMoves s t h
  by_cases htrig : ∃ p, s.accepted = some (.trigger p)
  · obtain ⟨p, ha⟩ := htrig
    obtain ⟨hst, hcount⟩ := session_of_trigger h ha
    simp [hst, hcount]
  by_cases hp : s.st = .await ∧ (s.fetchBusy = true ∨ s.accepted = some .poll)
  · obtain ⟨k, bytes, rest, -, -, hstay⟩ := hpolls hp.1 hp.2
    obtain ⟨hcount, hto⟩ := hstay (.inr hm)
    exact ⟨hto, hcount.le⟩
  · obtain ⟨hcount, hto⟩ := hother (not_exists.mp htrig) hp
    exact ⟨fun h => hs (hto h), hcount.le⟩

/-! ### The frames of the bus log -/

/-- A register read is of the block's frames at a legal address, for either pointer (R54). -/
theorem registerRead_framed {a : DevAddr} {p : Byte} {k : Bool} {bytes : List Byte} (ha : LegalAddr a)
    (hp : p = 0x01 ∨ p = 0x00) (hl : bytes.length ≤ 2) :
    ∀ e ∈ [BusEvent.write a [p] k, .read a 2 bytes], e.Framed := by
  have hw : (BusEvent.write a [p] k).Framed := ⟨ha, by rcases hp with rfl | rfl <;> simp⟩
  simpa using And.intro hw ⟨ha, rfl, hl⟩

/-- TRIGGER's configuration write is of the block's frames when the range is legal (R102, R120). -/
theorem triggerEvent_framed (p : BitVec 4) {s : State} (hr : s.rangeCode.toNat ≤ 5) : (triggerEvent p s).Framed := by
  obtain ⟨haddr, hmux⟩ := selectDevice_legal p
  exact ⟨haddr, .inr (.inr ⟨_, _, _, hmux, hr, rfl⟩)⟩

theorem logFramed_append {s t : State} {es : List BusEvent} (hs : s.LogFramed) (hes : ∀ e ∈ es, e.Framed)
    (h : t.busLog = s.busLog ++ es) : t.LogFramed := by
  intro e he
  rw [h, List.mem_append] at he
  exact he.elim (hs e) (hes e)

theorem logFramed_of_eq {s t : State} (hs : s.LogFramed) (h : t.busLog = s.busLog) : t.LogFramed :=
  logFramed_append hs (es := []) nofun (by simp [h])

theorem PollEffect.logFramed {s u : State} {a : PollAnswer} (e : PollEffect s u a) (ha : LegalAddr s.activeAddr)
    (hs : s.LogFramed) : u.LogFramed := by
  rcases e.log with hlog | ⟨k, bytes, hl, hlog⟩
  · exact logFramed_of_eq hs hlog
  · exact logFramed_append hs (registerRead_framed ha (.inl rfl) hl) hlog

theorem FetchEffect.logFramed {u t : State} (e : FetchEffect u t) (ha : LegalAddr u.activeAddr) (hu : u.LogFramed) :
    t.LogFramed := by
  rcases e.log with hlog | ⟨k, bytes, hl, hlog⟩
  · exact logFramed_of_eq hu hlog
  · exact logFramed_append hu (registerRead_framed ha (.inr rfl) hl) hlog

/-- Settles O50: TRIGGER logs its configuration write, a poll step and a result read log a register read at the active
address, and nothing else logs an event. -/
theorem stepKeepsLogFramed : Obligations.StepKeepsLogFramed := by
  intro s t hs hlog h
  by_cases hb : s.fetchBusy = true
  · obtain ⟨u, a, hp, he⟩ := fetchIterate_effect hb (blockStep_busy hb ▸ h)
    have e := pollStep_spec hp
    obtain ⟨haddr, -⟩ := e.device
    exact he.logFramed (haddr ▸ hs.addr) (e.logFramed hs.addr hlog)
  by_cases htrig : ∃ p, s.accepted = some (.trigger p)
  · obtain ⟨p, ha⟩ := htrig
    obtain ⟨-, -, rest, ht⟩ := exec_of_accepted h ha
    injection ht with ht
    subst ht
    exact logFramed_append hlog (es := [triggerEvent p { s with hostCmds := rest }])
      (List.forall_mem_singleton.mpr (triggerEvent_framed p hs.range)) rfl
  by_cases hp : s.accepted = some .poll
  · obtain ⟨rest, u, a, e, rfl⟩ := pollStep_of_accepted h hp
    exact e.logFramed hs.addr hlog
  · obtain ⟨-, hkept, -⟩ := step_sameSession h (Bool.eq_false_of_not_eq_true hb) (not_exists.mp htrig) hp
    exact logFramed_of_eq hlog hkept

end Sys2Proof.Machine

/-! PROOF. When a step is refused (60_exceptions.md section 4): at the end of a run, or on an overlong read answer;
so under the collaborator's contract the block steps until the run ends (10_state.md section 4). -/

namespace Sys2Proof.Machine

/-! ### Refusals -/

theorem fetchEnd_refused {s : State} {r : Refusal} (h : fetchEnd s = .refused r) :
    r = .overlongReadAnswer ∧ readOverlong 2 s = true := by
  cases hs : s.st
  case ready =>
    rw [fetchEnd_ready hs] at h
    split_ifs at h with ho
    injection h with h
    exact ⟨h.symm, ho⟩
  all_goals
    simp only [fetchEnd, hs] at h
    cases h

/-- A FETCH iteration is refused on an overlong answer to its poll or to its result read. -/
theorem fetchIterate_refused {s : State} {r : Refusal} (h : fetchIterate s = .refused r) :
    r = .overlongReadAnswer ∧
      (readOverlong 2 s = true ∨ ∃ u a, pollStep s = .ok (u, a) ∧ readOverlong 2 u = true) := by
  unfold fetchIterate at h
  split at h
  next r' hp =>
    injection h with h
    subst h
    obtain ⟨hr, ho⟩ := pollStep_refused hp
    exact ⟨hr, .inl ho⟩
  next u a hp =>
    obtain ⟨hr, ho⟩ := fetchEnd_refused h
    exact ⟨hr, .inr ⟨u, a, hp, ho⟩⟩

/-- POLL alone among the commands reads the device when it is accepted. -/
theorem exec_refused {i : Instr} {s : State} {r : Refusal} (h : exec i s = .refused r) :
    r = .overlongReadAnswer ∧ readOverlong 2 s = true := by
  cases i with
  | poll =>
    simp only [exec, execPoll] at h
    split at h
    next r' hp =>
      injection h with h
      exact h ▸ pollStep_refused hp
    next => cases h
  | _ => cases h

/-! ### The listed answers -/

/-- An overlong answer to the next read or the one after it is among the first two listed. -/
theorem overlong_of_readOverlong {s u : State} (h : readOverlong 2 u = true)
    (hu : u.reads = s.reads ∨ u.reads = s.reads.tail) : ∃ bytes ∈ s.reads.take 2, 2 < bytes.length := by
  unfold readOverlong at h
  split at h
  next => cases h
  next bytes rest hr =>
    refine ⟨bytes, ?_, of_decide_eq_true h⟩
    rw [hr] at hu
    rcases hu with hu | hu
    · simp [← hu]
    · match hs : s.reads with
      | [] => simp [hs] at hu
      | first :: others =>
        rw [hs, List.tail_cons] at hu
        simp [← hu]

theorem PollEffect.reads_suffix {s u : State} {a : PollAnswer} (e : PollEffect s u a) : u.reads <:+ s.reads := by
  rcases e.reads with hr | hr
  · exact hr ▸ List.suffix_rfl
  · exact hr ▸ List.tail_suffix _

/-- A step takes its read answers from the front of the list (R53). -/
theorem step_reads_suffix {s t : State} (h : step s = .next t) : t.reads <:+ s.reads := by
  by_cases hb : s.fetchBusy = true
  · obtain ⟨u, a, hp, he⟩ := fetchIterate_effect hb (blockStep_busy hb ▸ h)
    exact he.reads.trans (pollStep_spec hp).reads_suffix
  by_cases htrig : ∃ p, s.accepted = some (.trigger p)
  · obtain ⟨p, ha⟩ := htrig
    obtain ⟨-, -, rest, ht⟩ := exec_of_accepted h ha
    obtain ⟨-, -, -, -, -, -, hreads⟩ := commandFrames _ _ t ht
    exact hreads ▸ List.suffix_rfl
  by_cases hp : s.accepted = some .poll
  · obtain ⟨rest, u, a, e, rfl⟩ := pollStep_of_accepted h hp
    exact e.reads_suffix
  · obtain ⟨-, -, hreads⟩ := step_sameSession h (Bool.eq_false_of_not_eq_true hb) (not_exists.mp htrig) hp
    exact hreads ▸ List.suffix_rfl

/-! ### The end of a run -/

/-- Settles O35: an accepting step is refused on the first listed answer, an iteration on the first or the second. -/
theorem stepsRefusedOnlyByName : Obligations.StepsRefusedOnlyByName := by
  intro s r h
  cases hb : s.fetchBusy with
  | true =>
    rw [blockStep_busy hb] at h
    obtain ⟨hr, ho | ⟨u, a, hp, ho⟩⟩ := fetchIterate_refused h
    · exact .inr ⟨hr, overlong_of_readOverlong ho (.inl rfl)⟩
    · exact .inr ⟨hr, overlong_of_readOverlong ho (pollStep_spec hp).reads⟩
  | false =>
    match hc : s.hostCmds with
    | [] =>
      rw [step_of_ended ⟨hb, hc⟩] at h
      injection h with h
      exact .inl ⟨h.symm, hb, hc⟩
    | w :: rest =>
      match hd : decode w with
      | .ok i =>
        rw [step_of_legal hb hc hd] at h
        obtain ⟨hr, ho⟩ := exec_refused h
        exact .inr ⟨hr, overlong_of_readOverlong ho (.inl rfl)⟩
      | .error e =>
        rw [step_of_illegal hb hc hd] at h
        cases h

/-- Settles O36: the block has no fault, and under the contract only the end of a run is refused. -/
theorem stepExistsUntilRunEnds : Obligations.StepExistsUntilRunEnds := by
  intro s hc
  constructor
  · rintro ⟨t, h, -⟩ hend
    rw [step_of_ended hend] at h
    cases h
  · intro hn
    match h : step s with
    | .next t => exact ⟨t, rfl, fun bytes hm => hc bytes ((step_reads_suffix h).subset hm)⟩
    | .fault r => cases r
    | .refused r =>
      obtain ⟨-, hend⟩ | ⟨-, bytes, hm, hl⟩ := stepsRefusedOnlyByName s r h
      · exact absurd hend hn
      · exact absurd (hc bytes (List.mem_of_mem_take hm)) (Nat.not_le_of_lt hl)

end Sys2Proof.Machine

/-! PROOF. Polls and FETCH over several steps (42_conversion.md sections 2 and 3): what a FETCH returns, the two
settings of the poll parameter, any number of not-done polls, and the bound on a FETCH's wait. -/

namespace Sys2Proof.Machine

/-! ### What a FETCH returns -/

/-- Settles O28: in READY a silent poll step and a complete result read; in IDLE the poll step's events at most. -/
theorem fetchReturnsTheResultBytes : Obligations.FetchReturnsTheResultBytes := by
  refine ⟨fun s b0 b1 rest ks hb hs hp hr hk => ?_, by decide, by decide, fun s hb hs ho => ?_⟩
  · have hsilent := pollStep_of_silent (by simp [hs]) hp
    have ha := registerAnswer_of_listed resultPointer hk hr
    obtain ⟨t, ht, hres⟩ := fetchEnd_ready_complete hs (readOverlong_of_listed hr (Nat.le_refl 2))
      (congrArg RegisterAnswer.ack ha) (congrArg RegisterAnswer.bytes ha)
    simp only [State.result, RunResult.mk.injEq] at hres
    obtain ⟨hresp, hst, -, -, -, -, -, -, hbusy, -⟩ := hres
    exact ⟨t, (step_of_pollStep hb hsilent).trans ht, hst, hbusy, hresp⟩
  · obtain ⟨u, a, hp⟩ := pollStep_answers ho
    have e := pollStep_spec hp
    obtain ⟨-, hresp, -⟩ := e.kept
    have hu : u.st = .idle := (e.elsewhere (by simp [hs])).1.trans hs
    obtain ⟨-, -, hidle, -⟩ := fetchIteration s u a hb hp
    refine ⟨_, hidle hu, by rw [hresp], fun b ack hm => ?_, fun hf => ?_⟩
    · rcases e.log with hlog | ⟨k, bytes, -, hlog⟩ <;> simp [newEvents, hlog] at hm
    · have hsilent := hp.symm.trans (pollStep_of_silent (by simp [hs]) hf)
      injection hsilent with hsilent
      obtain ⟨rfl, -⟩ := Prod.mk.inj hsilent
      rfl

/-- Settles O30: of the ends of an iteration only the complete result read responds OK. -/
theorem fetchSampleWasRead : Obligations.FetchSampleWasRead := by
  intro s t r hb h hr hok
  obtain ⟨u, a, hp, -, -, -, -, -, -, hend⟩ := fetchIterate_spec (blockStep_busy hb ▸ h)
  have e := pollStep_spec hp
  obtain ⟨-, hresp, -⟩ := e.kept
  obtain ⟨es, hes, -⟩ := e.events
  have hword : ∀ {r'}, t.responses = s.responses ++ [r'] → r = r' := fun h' => by
    simpa using List.append_cancel_left (hr.symm.trans h')
  rcases hend with ⟨-, rfl⟩ | ⟨-, hend⟩
  · simp [hresp] at hr
  cases hend with
  | timedOut _ _ _ _ _ resp =>
    rw [hword resp, respStatus_responseWord] at hok
    cases hok
  | nothing _ _ _ _ _ resp =>
    rw [hword resp, respStatus_responseWord] at hok
    cases hok
  | failed _ _ _ _ _ _ _ _ _ resp =>
    rw [hword resp, respStatus_responseWord] at hok
    cases hok
  | sample b0 b1 _ ht log _ _ resp =>
    exact ⟨ht, b0, b1, es, by rw [log, hes], by rw [hword resp, respData_responseWord]⟩

/-! ### The parameter of a poll outside AWAIT -/

/-- `s` under the setting `b` of POLL_READS_WHEN_NOT_AWAITING. -/
def State.withPollReads (b : Bool) (s : State) : State :=
  { s with params := { s.params with pollReadsWhenNotAwaiting := b } }

/-- A poll in AWAIT does not look at the parameter (R125). -/
theorem awaitPolled_withPollReads (b : Bool) (s : State) :
    awaitPolled (s.withPollReads b) = (awaitPolled s).withPollReads b := by
  simp only [awaitPolled, pollAdvance_eq]
  rfl

/-- POLL answers the data and the state of its poll step (R127). -/
theorem exec_poll_reply {s u : State} {a : PollAnswer} (h : pollStep s = .ok (u, a)) :
    ∃ r, exec .poll s = .next { u with responses := s.responses ++ [r] } ∧ respData r = a.data ∧
      respState r = stateCode u.st := by
  obtain ⟨-, hresp, -⟩ := (pollStep_spec h).kept
  refine ⟨responseWord u.busErr (pollStatus u.st a.fail) u.st a.data, ?_, respData_responseWord _ _ _ _,
    respState_responseWord _ _ _ _⟩
  rw [exec_poll_of_pollStep h, respond, hresp]

/-- Settles O25: in AWAIT both settings run the same poll, elsewhere neither changes the session and both give data
0x0000. -/
theorem pollParameterMovesOnlyTraffic : Obligations.PollParameterMovesOnlyTraffic := by
  intro s ho
  by_cases hs : s.st = .await
  · have hoff := pollStep_of_await (s := s.withPollReads false) hs ho
    have hon := pollStep_of_await (s := s.withPollReads true) hs ho
    rw [awaitPolled_withPollReads] at hoff hon
    obtain ⟨r, ht, hrd, hrs⟩ := exec_poll_reply hoff
    obtain ⟨q, hu, hqd, hqs⟩ := exec_poll_reply hon
    exact ⟨_, _, r, q, ht, hu, ⟨rfl, rfl, rfl, rfl⟩, ⟨rfl, rfl⟩, rfl, rfl, rfl, hrd.trans hqd.symm, hrs.trans hqs.symm⟩
  · obtain ⟨r, ht, hrd, hrs⟩ := exec_poll_reply (pollStep_of_silent (s := s.withPollReads false) hs rfl)
    obtain ⟨q, hu, hqd, hqs⟩ := exec_poll_reply (pollStep_of_elsewhere (s := s.withPollReads true) hs rfl ho)
    exact ⟨_, _, r, q, ht, hu, ⟨rfl, rfl, rfl, rfl⟩, ⟨rfl, rfl⟩, rfl, rfl, rfl, hrd.trans hqd.symm, hrs.trans hqs.symm⟩

/-! ### Not-done polls -/

@[simp] theorem awaitPolled_fetchBusy (s : State) : (awaitPolled s).fetchBusy = s.fetchBusy := by
  simp [awaitPolled, pollAdvance_eq]

@[simp] theorem awaitPolled_params (s : State) : (awaitPolled s).params = s.params := by
  simp [awaitPolled, pollAdvance_eq]

@[simp] theorem awaitPolled_reads (s : State) : (awaitPolled s).reads = s.reads.tail := by
  simp [awaitPolled, pollAdvance_eq]

@[simp] theorem awaitPolled_responses (s : State) : (awaitPolled s).responses = s.responses := by
  simp [awaitPolled, pollAdvance_eq]

@[simp] theorem awaitPolled_busLog_length (s : State) : (awaitPolled s).busLog.length = s.busLog.length + 2 := by
  simp [awaitPolled, pollAdvance_eq]

/-- The session state after a poll in AWAIT that is answered with the listed bytes (R125). -/
theorem awaitPolled_st {s : State} {bytes : List Byte} {rest : List (List Byte)} (hs : s.st = .await)
    (hr : s.reads = bytes :: rest) :
    (awaitPolled s).st = if pollDone bytes then .ready
      else if s.params.maxPolls ≠ 0 ∧ s.pollCount + 1 = s.params.maxPolls then .timedOut else .await := by
  simp [awaitPolled, pollAdvance_eq, registerAnswer_bytes_of_listed configPointer hr, hs]

/-- A not-done poll counts while there is a limit (R125). -/
theorem awaitPolled_pollCount_of_notDone {s : State} {bytes : List Byte} {rest : List (List Byte)}
    (hr : s.reads = bytes :: rest) (hd : pollDone bytes = false) :
    (awaitPolled s).pollCount = if s.params.maxPolls = 0 then s.pollCount else s.pollCount + 1 := by
  simp [awaitPolled, pollAdvance_eq, registerAnswer_bytes_of_listed configPointer hr, hd]

/-- A step that accepts POLL in AWAIT and reads not done (R125, R127). -/
theorem step_notDone_poll {s : State} {bytes : List Byte} {reads : List (List Byte)} {cmds : List Byte}
    (hb : s.fetchBusy = false) (hs : s.st = .await) (hr : s.reads = bytes :: reads) (hd : NotDone bytes)
    (hc : s.hostCmds = 0x40 :: cmds) :
    ∃ t, step s = .next t ∧ t.fetchBusy = false ∧ t.hostCmds = cmds ∧ t.reads = reads ∧ t.params = s.params ∧
      t.responses.length = s.responses.length + 1 ∧
      t.pollCount = (if s.params.maxPolls = 0 then s.pollCount else s.pollCount + 1) ∧
      t.st = if s.params.maxPolls ≠ 0 ∧ s.pollCount + 1 = s.params.maxPolls then .timedOut else .await := by
  obtain ⟨hl, hnot⟩ := hd
  have hpoll := pollStep_of_await (s := { s with hostCmds := cmds }) hs (readOverlong_of_listed hr hl)
  refine ⟨_, (step_of_legal hb hc rfl).trans (exec_poll_of_pollStep hpoll), ?_, ?_, ?_, ?_, ?_, ?_, ?_⟩
  · simpa using hb
  · simp [awaitPolled_hostCmds]
  · simp [hr]
  · simp
  · simp
  · exact awaitPolled_pollCount_of_notDone (s := { s with hostCmds := cmds }) hr hnot
  · exact (awaitPolled_st (s := { s with hostCmds := cmds }) hs hr).trans (if_neg (by simp [hnot]))

/-- Polls that read not done, within the limit, are answered one by one and count up to it: only the last one can
reach the limit, so every poll before it leaves AWAIT for the next. -/
theorem run_notDone_polls (k : Nat) (s : State) (rest : List Byte) (hb : s.fetchBusy = false) (hs : s.st = .await)
    (hk : k ≤ s.reads.length) (hd : ∀ bytes ∈ s.reads.take k, NotDone bytes)
    (hc : s.hostCmds = List.replicate k 0x40 ++ rest)
    (hm : s.params.maxPolls = 0 ∨ s.pollCount + k ≤ s.params.maxPolls) :
    ∃ t, Sys2Proof.core.run k s = .next t ∧ t.hostCmds = rest ∧
      t.responses.length = s.responses.length + k ∧
      t.pollCount = (if s.params.maxPolls = 0 then s.pollCount else s.pollCount + k) ∧
      t.st = (if s.params.maxPolls ≠ 0 ∧ k ≠ 0 ∧ s.pollCount + k = s.params.maxPolls then .timedOut else .await) := by
  induction k generalizing s with
  | zero => exact ⟨s, rfl, by simpa using hc, rfl, by simp, by simp [hs]⟩
  | succ k ih =>
    match hr : s.reads with
    | [] => simp [hr] at hk
    | bytes :: reads =>
      rw [hr, List.take_succ_cons, List.forall_mem_cons] at hd
      rw [hr, List.length_cons] at hk
      obtain ⟨t, hstep, hbusy, hhost, hreads, hparams, hlen, hcount, hst⟩ := step_notDone_poll hb hs hr hd.1 hc
      by_cases hk0 : k = 0
      · subst hk0
        exact ⟨t, run_succ_of_step hstep, hhost, hlen, hcount, by simp [hst]⟩
      · have hawait : t.st = .await := hst.trans (if_neg (by omega))
        obtain ⟨v, hrun, hhost', hlen', hcount', hst'⟩ := ih t hbusy hawait (by rw [hreads]; omega)
          (by rw [hreads]; exact hd.2) hhost (by rw [hparams, hcount]; split_ifs <;> omega)
        refine ⟨v, (run_succ_of_step hstep).trans hrun, hhost', by omega, ?_, ?_⟩
        · rw [hcount', hparams, hcount]
          split_ifs <;> omega
        · rw [hst', hparams, hcount]
          by_cases h0 : s.params.maxPolls = 0
          · simp [h0]
          · simp [h0, hk0, Nat.add_assoc, Nat.add_comm 1 k]

/-- Settles O24: the run by `run_notDone_polls`, one POLL that reads done and one in READY by their poll steps. -/
theorem notDonePollsUpToLimit : Obligations.NotDonePollsUpToLimit := by
  refine ⟨run_notDone_polls, fun s bytes rest hs hr hl hd => ?_, fun s hs ho => ?_⟩
  · refine ⟨_, exec_poll_of_pollStep (pollStep_of_await hs (readOverlong_of_listed hr hl)), ?_⟩
    exact (awaitPolled_st hs hr).trans (if_pos hd)
  · obtain ⟨u, a, hp⟩ := pollStep_answers (s := s) fun _ => ho
    exact ⟨_, exec_poll_of_pollStep hp, ((pollStep_spec hp).elsewhere (by simp [hs])).1.trans hs⟩

/-! ### The wait of a FETCH -/

/-- An iteration that reads not done, without a limit, is its poll step (R131). -/
theorem step_notDone_wait {s : State} {bytes : List Byte} {reads : List (List Byte)} (hb : s.fetchBusy = true)
    (hs : s.st = .await) (hm : s.params.maxPolls = 0) (hr : s.reads = bytes :: reads) (hd : NotDone bytes) :
    step s = .next (awaitPolled s) ∧ (awaitPolled s).st = .await ∧ (awaitPolled s).pollCount = s.pollCount := by
  obtain ⟨hl, hnot⟩ := hd
  have hst : (awaitPolled s).st = .await := by simp [awaitPolled_st hs hr, hnot, hm]
  have hpoll := pollStep_of_await hs (readOverlong_of_listed hr hl)
  exact ⟨(step_of_pollStep hb hpoll).trans (fetchEnd_await hst), hst,
    (awaitPolled_pollCount_of_notDone hr hnot).trans (if_pos hm)⟩

/-- Settles O31: by induction on the number of not-done answers, each of which is one more iteration. -/
theorem fetchWaitsWithoutLimit : Obligations.FetchWaitsWithoutLimit := by
  intro k
  induction k with
  | zero => exact fun s hb hs _ _ _ => ⟨s, rfl, hb, hs, rfl, rfl, rfl, rfl⟩
  | succ k ih =>
    intro s hb hs hm hk hd
    match hr : s.reads with
    | [] => simp [hr] at hk
    | bytes :: reads =>
      rw [hr, List.take_succ_cons, List.forall_mem_cons] at hd
      rw [hr, List.length_cons] at hk
      obtain ⟨hstep, hst, hcount⟩ := step_notDone_wait hb hs hm hr hd.1
      have hreads : (awaitPolled s).reads = reads := by simp [hr]
      obtain ⟨t, hrun, hbusy, hst', hcount', hresp, hhost, hlog⟩ := ih (awaitPolled s)
        ((awaitPolled_fetchBusy s).trans hb) hst ((congrArg _ (awaitPolled_params s)).trans hm)
        (by rw [hreads]; omega) (by rw [hreads]; exact hd.2)
      refine ⟨t, (run_succ_of_step hstep).trans hrun, hbusy, hst', hcount'.trans hcount,
        hresp.trans (awaitPolled_responses s), hhost.trans (awaitPolled_hostCmds s), ?_⟩
      rw [hlog, awaitPolled_busLog_length]
      omega

/-- An iteration under a limit that stays in AWAIT read not done and counted without reaching the limit (R125). -/
theorem count_of_wait {s t : State} (hb : s.fetchBusy = true) (hs : s.st = .await) (hm : s.params.maxPolls ≠ 0)
    (h : step s = .next t) (ht : t.st = .await) :
    t.pollCount = s.pollCount + 1 ∧ s.pollCount + 1 ≠ s.params.maxPolls := by
  obtain ⟨u, a, hp, he⟩ := fetchIterate_effect hb (blockStep_busy hb ▸ h)
  obtain ⟨k, bytes, -, hst, hcount⟩ := (pollStep_spec hp).await hs
  have hu : u.st = .await := by
    have := he.session
    split_ifs at this
    · simp [ht] at this
    · exact this.symm.trans ht
  rw [hu] at hst
  split_ifs at hst with hd hlimit
  exact ⟨by simp [he.count, hcount, hd, hm], fun h => hlimit ⟨hm, h⟩⟩

/-- An iteration responds exactly when it ends its FETCH (R92). -/
theorem responses_of_iterate {s t : State} (h : step s = .next t) :
    (t.fetchBusy = true → t.responses = s.responses) ∧
      (t.fetchBusy = false → ∃ r, t.responses = s.responses ++ [r]) := by
  obtain ⟨-, -, -, -, rs, hrs, hlen⟩ := oneResponsePerCommand s t h
  refine ⟨fun hb => ?_, fun hb => ?_⟩
  · rw [hb, Bool.toNat_true] at hlen
    rw [hrs, List.length_eq_zero_iff.mp (by omega : rs.length = 0), List.append_nil]
  · rw [hb, Bool.toNat_false, Nat.add_zero] at hlen
    obtain ⟨r, rfl⟩ := List.length_eq_one_iff.mp hlen
    exact ⟨r, hrs⟩

/-- A waiting FETCH steps, and its parameters and its collaborator's contract stay. -/
theorem iterate_of_contract {s : State} (hb : s.fetchBusy = true) (hc : s.ContractKept) :
    ∃ t, step s = .next t ∧ t.ContractKept ∧ t.params = s.params := by
  have hn : ¬ s.Ended := fun he => by simp [he.1] at hb
  obtain ⟨t, h, hc'⟩ := (stepExistsUntilRunEnds s hc).mpr hn
  obtain ⟨hparams, -⟩ := settingsPersist s t h
  exact ⟨t, h, hc', hparams⟩

/-- A FETCH waiting `n` polls below the limit ends within `n` iterations. -/
theorem fetch_completes (n : Nat) (s : State) (hb : s.fetchBusy = true) (hs : s.st = .await)
    (hn : s.pollCount + n = s.params.maxPolls) (hpos : n ≠ 0) (hc : s.ContractKept) :
    ∃ k t r, 1 ≤ k ∧ k ≤ n ∧ Sys2Proof.core.run k s = .next t ∧ t.fetchBusy = false ∧
      t.responses = s.responses ++ [r] ∧ (t.st = .idle ∨ t.st = .timedOut) := by
  induction n generalizing s with
  | zero => exact absurd rfl hpos
  | succ n ih =>
    obtain ⟨t, h, hc', hparams⟩ := iterate_of_contract hb hc
    obtain ⟨hbusyResp, hdoneResp⟩ := responses_of_iterate h
    obtain ⟨-, -, -, hawait⟩ := session_of_iterate hb h
    rcases hawait hs with ⟨hst, hbusy⟩ | ⟨hst, hbusy⟩
    · obtain ⟨hcount, hlimit⟩ := count_of_wait hb hs (by omega) h hst
      obtain ⟨k, v, r, -, hk, hrun, hbusy', hresp, hst'⟩ :=
        ih t hbusy hst (by rw [hparams, hcount]; omega) (by omega) hc'
      exact ⟨k + 1, v, r, by omega, by omega, (run_succ_of_step h).trans hrun, hbusy', by rw [hresp, hbusyResp hbusy],
        hst'⟩
    · obtain ⟨r, hr⟩ := hdoneResp hbusy
      exact ⟨1, t, r, Nat.le_refl 1, by omega, run_succ_of_step h, hbusy, hr, hst⟩

/-- Settles O32: the polls left below the limit bound the iterations. -/
theorem fetchCompletesWithinLimit : Obligations.FetchCompletesWithinLimit :=
  fun s hb hs hlt hc => fetch_completes (s.params.maxPolls - s.pollCount) s hb hs (by omega) (by omega) hc

/-- A hang is busy after every run from it. -/
theorem State.Hangs.busy {s t : State} (h : s.Hangs) {k : Nat} (hk : Sys2Proof.core.run k s = .next t) :
    t.fetchBusy = true := by
  obtain ⟨t', hk', hb⟩ := h k
  rw [hk] at hk'
  injection hk' with ht
  exact ht ▸ hb

/-- Settles O33: in AWAIT the limit ends the wait, and in every other state one iteration ends it. -/
theorem noHangWithLimit : Obligations.NoHangWithLimit := by
  intro s hs hc hm hh
  have hb : s.fetchBusy = true := hh.busy (k := 0) rfl
  by_cases hst : s.st = .await
  · obtain ⟨k, t, r, -, -, hrun, hbusy, -⟩ := fetchCompletesWithinLimit s hb hst (hs.countAwait hst hm) hc
    simp [hh.busy hrun] at hbusy
  · obtain ⟨t, h, -⟩ := iterate_of_contract hb hc
    have hbusy := hh.busy (k := 1) (run_succ_of_step h)
    obtain ⟨hidle, hready, htimedOut, -⟩ := session_of_iterate hb h
    cases hstate : s.st with
    | await => exact hst hstate
    | idle => simp [(hidle hstate).2] at hbusy
    | ready => simp [(hready hstate).2] at hbusy
    | timedOut => simp [(htimedOut hstate).2] at hbusy

end Sys2Proof.Machine
